-- ==== Sys2Proof/Word.lean ====
section
/-! DEFINITION. The word types the ports carry (12_formats_and_tables.md, "Field encoding"), sets of small numbers,
and tables of fixed length. -/

namespace Sys2Proof

/-- One byte on either port. -/
abbrev Byte := BitVec 8

/-- A set of numbers below `n`: number `k` is a member when bit `k` is set. The ports carry every set of the part
this way (R199); the records hold it the same way, so that two equal sets are equal data. -/
abbrev MemberSet (n : Nat) := BitVec n

/-- Is `k` in the set? A number at or beyond the width is in no set. -/
def hasMember {n : Nat} (set : MemberSet n) (k : Nat) : Bool := set.getLsbD k

/-- The set with `k` put in. -/
def withMember {n : Nat} (set : MemberSet n) (k : Nat) : MemberSet n := set ||| BitVec.twoPow n k

/-- The set with `k` taken out. -/
def withoutMember {n : Nat} (set : MemberSet n) (k : Nat) : MemberSet n := set &&& ~~~(BitVec.twoPow n k)

/-- A table of `n` places, given place by place. -/
def tabulate {α : Type} (n : Nat) (f : Fin n → α) : Vector α n :=
  ⟨⟨(List.finRange n).map f⟩, by simp⟩

@[simp] theorem getElem_tabulate {α : Type} (n : Nat) (f : Fin n → α) (i : Nat) (h : i < n) :
    (tabulate n f)[i] = f ⟨i, h⟩ := by
  simp [tabulate]

/-- The lowest index of a table of `n` places that satisfies a test. -/
def lowest (n : Nat) (p : Fin n → Bool) : Option (Fin n) := (List.finRange n).find? p

end Sys2Proof
end

