-- ==== Sys2Proof/Config.lean ====
section
/-! DEFINITION. The free values: the spec gives the command its effect but states no code for a value that travels.
Each is a constant without a body, so no proof can see what it is. -/

namespace Sys2Proof.Config

/-- What travels for a sequence number that is absent or "none" (VOID's reply, R80; LOG STATUS of an empty log, R141).
R199 gives absent values for times and cards alone. DESIGN CHOICE: the spec states no value here (log 9). -/
opaque absentSequence : BitVec 32

/-- What travels for an absent pending target (R188, R193). R199 gives no absent code for a mode. DESIGN CHOICE: the
spec states no value here (log 10). -/
opaque absentPendingTarget : BitVec 8

/-- What travels for an absent operation group of a denial entry (R157). DESIGN CHOICE: the spec states no value here
(log 11). -/
opaque absentGroup : BitVec 8

/-- What travels as the reason of an owed STOP that is absent (READ COMPARTMENT, R125). DESIGN CHOICE: the spec states
no value here (log 12). -/
opaque absentStopReason : BitVec 8

/-- The tag returned in the DENY FORMAT that answers a taken good frame too short to hold a tag byte (R161). DESIGN
CHOICE: the spec states no value here (log 13). -/
opaque missingTag : BitVec 8

end Sys2Proof.Config
end

