-- ==== Sys2Proof/Syntax.lean ====
section
/-! DEFINITION. The commands of spec/opcode_table.json, one constructor each, over their operands as they travel
(12_formats_and_tables.md, R199). What a command does is in the machine alone. -/

namespace Sys2Proof

/-- The office commands of the command code table (12, "Command codes"), in its order. -/
inductive OfficeCommand where
  | openAccount | editAccount | suspendAccount | resumeAccount | closeAccount | setStatus | clearLate | readAccount
  | findCard
  | setProfile | cancelPendingProfile | readProfile | readAllowance | hoursCheck
  | setTime | adjustTime | readTime | readAlarms
  | createFolder | setCompartment | setPapers | setTrip | submit | reopen | assignBay | unassign | amend
  | overrideFolder | voidFolder | finishLoading | readFolder | readCompartment | nextFlaggedFolder
  | setSubstance | clearSubstance | readSubstance | listSubstances | setMatrixPair | readMatrix | setThreshold
  | readThresholds | setMetering | readMetering
  | readLogOldest | readLog | ackLog | logStatus | setLogWarning
  | setRights | readRights | readDenials
  | setLink | readmitNode | readLink
  | readReply | ackAttention | setEnables | readAttention | nextFlaggedAccount
  | requestMode | readMode | clearAll
deriving DecidableEq, Repr

/-- The message kinds of the rack link (12, "Rack-link layouts"). -/
inductive MessageKind where
  | idle | card | start | total | ending | done | entry | release | exit
deriving DecidableEq, Repr

/-- The moments of an office transaction at which something of it happens (R175 to R178): OSEL falls and the summary byte
is formed; OSEL rises after a complete frame, the arrival is stamped and the port is busy; the command taken is handled.
Other blocks' events, and transactions begun while the port is busy, may fall between them (R44, R176, R186). `atOnce` is
all of these that are still to come, with nothing between them (log 3). -/
inductive OfficeMoment where
  | oselFalls | oselRises | handled | atOnce
deriving DecidableEq, Repr

/-- What every office command carries beside its arguments (R175, R177): its tag, the SKEY level sampled at the rise
of OSEL (R145), which moment of its transaction comes (log 3), and how many whole bytes were clocked after the complete
frame (R175). -/
structure OfficeFrame where
  tag : Byte
  skey : Bool
  moment : OfficeMoment
  extra : Nat
deriving DecidableEq, Repr

/-- The two moments of a good frame (R44, R169): its reception ends, which is its arrival; its slot ends, and it is
handled. Office commands and clock events may fall between them (R169; log 1). -/
inductive SlotMoment where
  | received | slotEnd
deriving DecidableEq, Repr

/-- What every request of the rack link carries beside its fields: the node of the slot it came in (R159), its request
tag (R161) and which of its moments comes (log 1). -/
structure LinkFrame where
  node : Fin 9
  tag : Byte
  moment : SlotMoment
deriving DecidableEq, Repr

/-- The cause of a warm start (R197): a power-on with BKOK high, or RESET returning high. -/
inductive WarmCause where
  | power | reset
deriving DecidableEq, Repr

/-- The commands: one constructor per row of spec/opcode_table.json, in the table's order. -/
inductive Instr where
  -- accounts (01)
  | openAccount (o : OfficeFrame) (card : BitVec 32) (profile endorsements : Byte) (expiry : BitVec 16)
  | editAccount (o : OfficeFrame) (index : Byte) (card : BitVec 32) (profile endorsements : Byte) (expiry : BitVec 16)
  | suspendAccount (o : OfficeFrame) (index : Byte)
  | resumeAccount (o : OfficeFrame) (index : Byte)
  | closeAccount (o : OfficeFrame) (index : Byte)
  | setStatus (o : OfficeFrame) (index status : Byte) (time : BitVec 32)
  | clearLate (o : OfficeFrame) (index : Byte)
  | readAccount (o : OfficeFrame) (index : Byte)
  | findCard (o : OfficeFrame) (card : BitVec 32)
  -- hours (02)
  | setProfile (o : OfficeFrame) (letter : Byte) (dMax wMax bMax brkMin rMin cMax warnLead : BitVec 16)
  | cancelPendingProfile (o : OfficeFrame) (letter : Byte)
  | readProfile (o : OfficeFrame) (letter : Byte)
  | readAllowance (o : OfficeFrame) (index : Byte)
  | hoursCheck (o : OfficeFrame) (folder : Byte)
  -- clock (03)
  | setTime (o : OfficeFrame) (value : BitVec 32) (offset : BitVec 16)
  | adjustTime (o : OfficeFrame) (seconds : BitVec 16)
  | readTime (o : OfficeFrame)
  | readAlarms (o : OfficeFrame) (position : Byte)
  -- folders (04)
  | createFolder (o : OfficeFrame) (tanker : BitVec 32) (primary second : Byte) (drive duty : BitVec 16) (count : Byte) (capacities : Vector (BitVec 16) 6)
  | setCompartment (o : OfficeFrame) (folder compartment : Byte) (capacity substance declared : BitVec 16)
  | setPapers (o : OfficeFrame) (folder count : Byte) (lines : Vector (BitVec 16 × Byte) 6)
  | setTrip (o : OfficeFrame) (folder : Byte) (drive duty : BitVec 16)
  | submit (o : OfficeFrame) (folder : Byte)
  | reopen (o : OfficeFrame) (folder : Byte)
  | assignBay (o : OfficeFrame) (folder bay : Byte)
  | unassign (o : OfficeFrame) (folder : Byte)
  | amend (o : OfficeFrame) (folder compartment : Byte) (declared : BitVec 16)
  | overrideFolder (o : OfficeFrame) (folder : Byte)
  | voidFolder (o : OfficeFrame) (folder : Byte)
  | finishLoading (o : OfficeFrame) (folder : Byte)
  | readFolder (o : OfficeFrame) (folder : Byte)
  | readCompartment (o : OfficeFrame) (folder compartment : Byte)
  | nextFlaggedFolder (o : OfficeFrame)
  -- dangerous goods tables (05)
  | setSubstance (o : OfficeFrame) (code : BitVec 16) (group cls : Byte) (fill : BitVec 16)
  | clearSubstance (o : OfficeFrame) (code : BitVec 16)
  | readSubstance (o : OfficeFrame) (code : BitVec 16)
  | listSubstances (o : OfficeFrame) (position : Byte)
  | setMatrixPair (o : OfficeFrame) (g h ruling : Byte)
  | readMatrix (o : OfficeFrame) (g : Byte)
  | setThreshold (o : OfficeFrame) (group : Byte) (quantity : BitVec 16)
  | readThresholds (o : OfficeFrame)
  -- metering settings (06)
  | setMetering (o : OfficeFrame) (arms settleMin settleBand settleMax passTenths : Byte) (passFloor : BitVec 16) (amendTenths : Byte) (amendFloor : BitVec 16)
  | readMetering (o : OfficeFrame)
  -- delivery log (07)
  | readLogOldest (o : OfficeFrame)
  | readLog (o : OfficeFrame) (sequence : BitVec 32)
  | ackLog (o : OfficeFrame) (sequence : BitVec 32)
  | logStatus (o : OfficeFrame)
  | setLogWarning (o : OfficeFrame) (level : BitVec 16)
  -- rights (08)
  | setRights (o : OfficeFrame) (groups : BitVec 16) (value : Byte)
  | readRights (o : OfficeFrame)
  | readDenials (o : OfficeFrame)
  -- link settings (09)
  | setLink (o : OfficeFrame) (period : BitVec 16) (silence : Byte) (enrolled : BitVec 16)
  | readmitNode (o : OfficeFrame) (node : Byte)
  | readLink (o : OfficeFrame)
  -- office port (10)
  | readReply (o : OfficeFrame)
  | ackAttention (o : OfficeFrame) (flags : BitVec 16)
  | setEnables (o : OfficeFrame) (mask value : BitVec 16)
  | readAttention (o : OfficeFrame)
  | nextFlaggedAccount (o : OfficeFrame)
  -- modes (11)
  | requestMode (o : OfficeFrame) (target : Byte)
  | readMode (o : OfficeFrame)
  | clearAll (o : OfficeFrame)
  -- office port events (10)
  | unknownCommandCode (o : OfficeFrame) (code length : Byte)
  | droppedFrame (bytes : List Byte) (bits : Fin 8)
  | busyTransaction (bytes : Nat)
  -- rack link (04, 06, 07, 09)
  | card (l : LinkFrame) (tanker number : BitVec 32)
  | start (l : LinkFrame) (folder compartment : Byte)
  | total (l : LinkFrame) (folder compartment : Byte) (litres : BitVec 16) (flowing : Byte)
  | endCompartment (l : LinkFrame) (folder compartment : Byte)
  | doneLoading (l : LinkFrame) (folder : Byte)
  | entry (l : LinkFrame) (number : BitVec 32)
  | release (l : LinkFrame) (folder : Byte) (placards : BitVec 16)
  | exit (l : LinkFrame) (folder : Byte)
  | idle (l : LinkFrame)
  | malformedFrame (node : Fin 9) (moment : SlotMoment) (body : List Byte)
  | damagedFrame (node : Fin 9)
  | emptySlot (node : Fin 9)
  | beacon
  -- clock events and starts (03, 11)
  | minuteBoundary
  | dayBoundary
  | coldStart
  | warmStart (cause : WarmCause)
  | resetAsserted
  | powerFail
  | clockSecondCount
deriving DecidableEq, Repr

end Sys2Proof
end

