-- ==== Sys2Proof/Machine/State.lean ====
section
/-! DEFINITION. The state of the VL2416: every record the spec gives it, grouped by the block that owns it
(00_scope.md, "Block overview"), the queue of waiting commands, and the state after reset. -/

namespace Sys2Proof.Machine

/-! ## Names -/

/-- Operating mode (R187). -/
inductive Mode where
  | config | listen | run
deriving DecidableEq, Repr

/-- Duty status of a driver (R1). -/
inductive Status where
  | rest | duty | drive
deriving DecidableEq, Repr

/-- Standing of an account record (R1). -/
inductive AccountState where
  | free | active | suspended
deriving DecidableEq, Repr

/-- The two limit profiles (R32). -/
inductive ProfileLetter where
  | a | b
deriving DecidableEq, Repr

/-- Alarm flags of an account (R18). -/
inductive AlarmFlag where
  | warn | overRun | overWindow | expired | late
deriving DecidableEq, Repr

/-- Kind of an entry of the Limit Alarm List (R54). -/
inductive AlarmKind where
  | warn | limit | window
deriving DecidableEq, Repr

/-- Folder states (R62). -/
inductive FolderState where
  | free | opened | papered | assigned | loading | amendWait | held | ready | released
deriving DecidableEq, Repr

/-- Loading states of a compartment (R105). -/
inductive LoadingState where
  | empty | planned | permitted | flowing | stopped | settled | loaded | unsettled | interrupted | skipped
deriving DecidableEq, Repr

/-- Outcome of reconciliation (R105). -/
inductive Result where
  | matched | amend | mismatch | fault
deriving DecidableEq, Repr

/-- Reason of a STOP (R105). -/
inductive StopReason where
  | overfill | overload | voided
deriving DecidableEq, Repr

/-- Ruling of a matrix cell (R93). -/
inductive Ruling where
  | ok | apart | never
deriving DecidableEq, Repr

/-- Kind of a log entry (R136). -/
inductive LogKind where
  | dispatch | dispatchOverride | voided
deriving DecidableEq, Repr

/-- Health of a node (R162). -/
inductive NodeState where
  | unknown | present | warning | absent | isolated
deriving DecidableEq, Repr

/-- The ten operation groups, in the order of R147. -/
inductive OperationGroup where
  | statusSet | accountEdit | folderEdit | assign | amend | finish | voiding | logAck | time | nodeAdmin
deriving DecidableEq, Repr

/-- Roles (R145). -/
inductive Role where
  | office | supervisor | gate | bay (n : Fin 8)
deriving DecidableEq, Repr

/-- Reason codes (12, "Reason codes"), in the order of their numbers. -/
inductive Reason where
  | deniedRole | deniedWindow | badState | format | range | full | mode | unknownDriver | cardInUse | expired
  | suspended | driverBusy | bayBusy | wrongCard | unknownSubstance | fillLimit | papers | incompatible | endorsement
  | hoursDrive | hoursCycle | placard | logFull | arms | inProgress | inUse | noClock | timeBack | future
deriving DecidableEq, Repr

/-- Attention flags, in their priority order (R181). -/
inductive AttentionFlag where
  | clock | restart | node | alarm | folder | log | access | mode
deriving DecidableEq, Repr

/-- Kind of a start (R187). -/
inductive StartKind where
  | cold | warm
deriving DecidableEq, Repr

/-- Cause of a start (R187). -/
inductive StartCause where
  | power | clearAll | reset
deriving DecidableEq, Repr

/-! ## Terminal Clock -/

/-- The Terminal Clock's records (R44). `minuteDue` is the model's own: the clock stands in a minute whose boundary is
still to be taken (R48, R59; log 2). -/
structure TerminalClock where
  clock : Nat
  highWater : Nat
  clockSet : Bool
  dayOffset : Nat
  treatedDay : Nat
  minuteDue : Bool
deriving DecidableEq, Repr

/-! ## Driver accounts -/

/-- A day bucket (R1). Stamp 0 means unused. -/
structure Bucket where
  day : Nat
  duty : Nat
  drive : Nat
deriving DecidableEq, Repr

/-- An account record (R1). `shiftStart` absent means the shift is closed. -/
structure Account where
  state : AccountState
  card : Option Nat
  profile : ProfileLetter
  endorsements : MemberSet 8
  expiry : Nat
  status : Status
  since : Nat
  nonDriveSince : Option Nat
  shiftStart : Option Nat
  shiftDrive : Nat
  driveSinceBreak : Nat
  buckets : Vector Bucket 8
  alarms : MemberSet 5
  unread : Bool
  liveFolder : Option (Fin 16)
deriving DecidableEq, Repr

/-- The FREE values of an account record (R3). -/
def Account.free : Account where
  state := .free
  card := none
  profile := .a
  endorsements := 0
  expiry := 0
  status := .rest
  since := 0
  nonDriveSince := some 0
  shiftStart := none
  shiftDrive := 0
  driveSinceBreak := 0
  buckets := Vector.replicate 8 ⟨0, 0, 0⟩
  alarms := 0
  unread := false
  liveFolder := none

/-! ## Hours -/

/-- The seven items of a profile copy (R32). -/
structure Limits where
  dMax : Nat
  wMax : Nat
  bMax : Nat
  brkMin : Nat
  rMin : Nat
  cMax : Nat
  warnLead : Nat
deriving DecidableEq, Repr

/-- A limit profile (R32). -/
structure LimitProfile where
  active : Limits
  pendingCopy : Limits
  pendingValid : Bool
deriving DecidableEq, Repr

/-- An entry of the Limit Alarm List (R54). -/
structure AlarmEntry where
  account : Fin 64
  kind : AlarmKind
  due : Nat
deriving DecidableEq, Repr

/-- Records of the Hours Unit (R32, R54). -/
structure HoursUnit where
  profileA : LimitProfile
  profileB : LimitProfile
  alarms : List AlarmEntry
deriving DecidableEq, Repr

/-! ## Folders and compartments -/

/-- A stop order not yet carried by a beacon (R105). -/
structure OwedStop where
  reason : StopReason
  bay : Fin 8
deriving DecidableEq, Repr

/-- A compartment: plan fields (R63), then loading fields (R105). -/
structure Compartment where
  capacity : Nat
  substance : Option Nat
  declared : Nat
  loading : LoadingState
  metered : Nat
  settleCount : Nat
  stoppedReports : Nat
  rejectedReports : Nat
  lastReport : Option Nat
  result : Option Result
  owedStop : Option OwedStop
  stopSent : Bool
deriving DecidableEq, Repr

/-- A compartment of given capacity, substance absent, declared 0, with the starting loading fields (R65, R105). -/
def Compartment.starting (capacity : Nat) : Compartment where
  capacity := capacity
  substance := none
  declared := 0
  loading := .empty
  metered := 0
  settleCount := 0
  stoppedReports := 0
  rejectedReports := 0
  lastReport := none
  result := none
  owedStop := none
  stopSent := false

/-- A line of the load papers (R63). -/
structure PapersLine where
  code : Nat
  compartments : MemberSet 8
deriving DecidableEq, Repr

/-- Why a folder is HELD (R62). -/
structure HoldReasons where
  fault : Bool
  mismatch : Bool
deriving DecidableEq, Repr

/-- A folder record (R62). -/
structure Folder where
  state : FolderState
  tanker : Nat
  primary : Fin 64
  second : Option (Fin 64)
  plannedDrive : Nat
  plannedDuty : Nat
  bay : Option (Fin 8)
  compartments : List Compartment
  papers : List PapersLine
  placards : MemberSet 16
  holdReasons : HoldReasons
  lastRefusal : MemberSet 32
  overrideMark : Bool
  releaseTime : Option Nat
  unread : Bool
  created : Nat
deriving DecidableEq, Repr

/-- A folder with its FREE values (R64), keeping a compartment list. -/
def Folder.free (compartments : List Compartment) : Folder where
  state := .free
  tanker := 0
  primary := 0
  second := none
  plannedDrive := 0
  plannedDuty := 0
  bay := none
  compartments := compartments
  papers := []
  placards := 0
  holdReasons := ⟨false, false⟩
  lastRefusal := 0
  overrideMark := false
  releaseTime := none
  unread := false
  created := 0

/-! ## Dangerous goods tables -/

/-- An entry of the substance table (R87). -/
structure Substance where
  code : Nat
  group : Fin 16
  cls : Fin 8
  fill : Nat
deriving DecidableEq, Repr

/-- Records of the Goods Check Unit (R87, R93, R97). The matrix holds cell (g, h) at place 16 g + h; the thresholds
hold group g at place g - 1. -/
structure GoodsTables where
  substances : List Substance
  cells : Vector Ruling 256
  thresholds : Vector Nat 15
deriving DecidableEq, Repr

/-! ## Metering settings -/

/-- The eight settings of the Meter Reconciler (R107). -/
structure MeterSettings where
  arms : Nat
  settleMin : Nat
  settleBand : Nat
  settleMax : Nat
  passTenths : Nat
  passFloor : Nat
  amendTenths : Nat
  amendFloor : Nat
deriving DecidableEq, Repr

/-! ## Delivery log -/

/-- A compartment record of a log entry (R136). -/
structure LogCompartment where
  index : Nat
  substance : Option Nat
  declared : Nat
  metered : Nat
  result : Option Result
deriving DecidableEq, Repr

/-- A log entry (R136). -/
structure LogEntry where
  sequence : Nat
  kind : LogKind
  time : Nat
  folder : Fin 16
  tanker : Nat
  primaryCard : Option Nat
  secondCard : Option Nat
  plannedDrive : Nat
  plannedDuty : Nat
  sPrimary : Option Nat
  sSecond : Option Nat
  placards : MemberSet 16
  compartments : List LogCompartment
deriving DecidableEq, Repr

/-- Records of the Delivery Log (R135), entries oldest first. -/
structure DeliveryLog where
  held : List LogEntry
  nextSequence : Nat
  level : Nat
deriving DecidableEq, Repr

/-! ## Rights -/

/-- What a denied request asked for (R157). -/
inductive Operation where
  | office (c : OfficeCommand)
  | link (k : MessageKind)
deriving DecidableEq, Repr

/-- An entry of the denial record (R157). -/
structure Denial where
  role : Role
  node : Option (Fin 9)
  operation : Operation
  group : Option OperationGroup
  reason : Reason
  folderNamed : Option Byte
  time : Nat
deriving DecidableEq, Repr

/-- Records of the Rights Check (R147, R157): the groups allowed to OFFICE, and the denials, oldest first. -/
structure RightsCheck where
  allowed : MemberSet 10
  denials : List Denial
deriving DecidableEq, Repr

/-! ## Rack link -/

/-- A node-table entry (R162). -/
structure NodeEntry where
  state : NodeState
  faults : Nat
  silence : Nat
  lastGood : Option Nat
deriving DecidableEq, Repr

/-- The start values of a node-table entry (R162). -/
def NodeEntry.start : NodeEntry := ⟨.unknown, 0, 0, none⟩

/-- Kind of a reply record, with its reason or reason set (R170). -/
inductive ReplyBody where
  | accept
  | permit
  | deny (reason : Reason)
  | grant
  | refuse (reasons : MemberSet 32)
deriving DecidableEq, Repr

/-- Argument of a reply record (R170). -/
inductive Argument where
  | none
  | folder (f : Fin 16)
  | compartment (c : Nat)
  | folderState (st : FolderState)
  | sequence (n : Nat)
  | account (i : Fin 64)
deriving DecidableEq, Repr

/-- Class of a reply record (R170). -/
inductive ReplyClass where
  | one | two | three
deriving DecidableEq, Repr

/-- A reply record (R170). -/
structure ReplyRecord where
  node : Fin 9
  tag : Byte
  body : ReplyBody
  argument : Argument
  cls : ReplyClass
deriving DecidableEq, Repr

/-- A record a beacon carries (R171). -/
inductive BeaconRecord where
  | stop (bay : Fin 8) (folder : Fin 16) (compartment : Nat) (reason : StopReason)
  | reply (r : ReplyRecord)
deriving DecidableEq, Repr

/-- A beacon (R171). -/
structure Beacon where
  cycle : Byte
  mode : Mode
  taken : MemberSet 9
  records : List BeaconRecord
deriving DecidableEq, Repr

/-- Records of the Rack Link Controller (R159, R160, R162, R168, R170). -/
structure RackLink where
  cyclePeriod : Nat
  silenceLimit : Nat
  enrolled : MemberSet 9
  nodes : Vector NodeEntry 9
  taken : MemberSet 9
  queue : List ReplyRecord
  reserved : Nat
  cycle : Byte
deriving DecidableEq, Repr

/-! ## Office port, modes, pins -/

/-- A reply record of the office port (R179). `result` absent is OK. -/
structure OfficeReply where
  tag : Byte
  code : Byte
  result : Option Reason
  data : List Byte
deriving DecidableEq, Repr

/-- Records of the Office Port (R179, R181, R182). -/
structure OfficePort where
  reply : Option OfficeReply
  flags : MemberSet 8
  enables : MemberSet 8
deriving DecidableEq, Repr

/-- The start just made (R187). -/
structure LastStart where
  kind : StartKind
  cause : StartCause
deriving DecidableEq, Repr

/-- Records of Mode Control (R187). -/
structure ModeControl where
  mode : Mode
  pendingTarget : Option Mode
  lastStart : LastStart
deriving DecidableEq, Repr

/-- Power and the RESET input (R194, R197). `startOwed` holds the start, by BKOK, of a power-on made with RESET held
low: it is made when RESET returns high (R197). -/
structure Pins where
  powered : Bool
  resetLow : Bool
  startOwed : Option StartKind
deriving DecidableEq, Repr

/-- A good frame between its arrival and the end of its slot: the node of the slot (R159), the arrival second stamped
(R44), the mode at its arrival (R168, R188) and whether a mode change was pending then (R82, R192). -/
structure Arrival where
  node : Fin 9
  second : Nat
  mode : Mode
  changePending : Bool
deriving DecidableEq, Repr

/-- The taking of an office command, at the rise of OSEL: the arrival second stamped (R44), and the high-water time as it
stood then (R53). -/
structure Taking where
  second : Nat
  highWater : Nat
deriving DecidableEq, Repr

/-- What is under way at the ports. `summary` is the summary byte of a transaction begun with the port idle, formed when
OSEL fell (R178); `refused` holds while a transaction begun with the port busy is being shifted (R176); `risen` is the
taking of the command not yet handled, the port being busy while it is present (R44, R53, R176); `frame` is the frame
whose slot has not ended (R169). Absent where no event has fallen in between (logs 1, 3). -/
structure Underway where
  summary : Option Byte
  refused : Bool
  risen : Option Taking
  frame : Option Arrival
deriving DecidableEq, Repr

/-- What left the part last: the bytes on OSDO in the last office transaction, and the last beacon. The model's own
observation fields (log 4). -/
structure Outputs where
  office : List Byte
  beacon : Option Beacon
deriving DecidableEq, Repr

/-- The state of the part, and the commands that wait, the next one first (log 5). -/
structure State where
  tc : TerminalClock
  accounts : Vector Account 64
  hu : HoursUnit
  folders : Vector Folder 16
  gcu : GoodsTables
  mr : MeterSettings
  dl : DeliveryLog
  rc : RightsCheck
  rlc : RackLink
  op : OfficePort
  mc : ModeControl
  pins : Pins
  underway : Underway
  out : Outputs
  pending : List Instr
deriving DecidableEq, Repr

/-- Why the part could stop. The spec gives every event an outcome in the records, so there is no fault: no meaning
raises one. Safe: nothing is lost by a stop that never comes. -/
inductive Fault where
deriving DecidableEq, Repr

/-- Why the model could refuse a command. -/
inductive Refusal where
  /-- Raised by exec's arm of a command that has no meaning yet; no arm is left so. Safe: a run that stops here claims
  nothing. -/
  | notModelled (mnemonic : String)
deriving DecidableEq, Repr

/-! ## Cold values and reset -/

/-- Profile A's reset values (R32). -/
def Limits.resetA : Limits := ⟨600, 840, 270, 30, 600, 3600, 30⟩

/-- Profile B's reset values (R32). -/
def Limits.resetB : Limits := ⟨660, 900, 300, 30, 540, 3900, 30⟩

/-- The cold value of cell (g, h) (R93): the diagonal, row 0 and column 0 OK, every other cell NEVER. -/
def coldRuling (g h : Nat) : Ruling := if g = h ∨ g = 0 ∨ h = 0 then .ok else .never

/-- The state right after a cold start by power-on (R195, R198), nothing waiting (log 6). -/
def State.reset : State where
  tc := ⟨0, 0, false, 0, 1, false⟩
  accounts := Vector.replicate 64 Account.free
  hu := ⟨⟨.resetA, .resetA, false⟩, ⟨.resetB, .resetB, false⟩, []⟩
  folders := Vector.replicate 16 (Folder.free [Compartment.starting 100])
  gcu := ⟨[], tabulate 256 (fun k => coldRuling (k.val / 16) (k.val % 16)), Vector.replicate 15 0⟩
  mr := ⟨2, 3, 2, 12, 5, 20, 20, 50⟩
  dl := ⟨[], 1, 768⟩
  rc := ⟨0b1110111111#10, []⟩
  rlc := ⟨250, 8, 0b111111111#9, Vector.replicate 9 NodeEntry.start, 0, [], 0, 0⟩
  op := ⟨none, 0b00000001#8, 0b11111111#8⟩
  mc := ⟨.config, none, ⟨.cold, .power⟩⟩
  pins := ⟨true, false, none⟩
  underway := ⟨none, false, none, none⟩
  out := ⟨[], none⟩
  pending := []

end Sys2Proof.Machine
end

