-- ==== Sys2Proof/Machine/Codes.lean ====
section
/-! DEFINITION. The numeric codes of 12_formats_and_tables.md: enumerations, reason codes, command codes with class and
length, message kinds, and the bytes of multi-byte fields and of check words. -/

namespace Sys2Proof.Machine

/-! ## Bytes -/

/-- `n` zero bytes. -/
def zeroBytes (n : Nat) : List Byte := List.replicate n 0

/-- Two bytes of a number, most significant first (12, introduction). -/
def bytes2 (n : Nat) : List Byte := [BitVec.ofNat 8 (n / 256), BitVec.ofNat 8 n]

/-- Four bytes of a number, most significant first. -/
def bytes4 (n : Nat) : List Byte :=
  [BitVec.ofNat 8 (n / 16777216), BitVec.ofNat 8 (n / 65536), BitVec.ofNat 8 (n / 256), BitVec.ofNat 8 n]

/-- One byte of a number. -/
def byte1 (n : Nat) : List Byte := [BitVec.ofNat 8 n]

/-- Four bytes of a signed number, two's complement (R199). -/
def bytesSigned (z : Int) : List Byte := bytes4 (BitVec.ofInt 32 z).toNat

/-- A field that is set or clear, yes or no (R199). -/
def byteOfBool (b : Bool) : List Byte := [if b then 1 else 0]

/-- A number of two bytes, or 0xFFFF where it is absent. -/
def bytes2OrAbsent (n : Option Nat) : List Byte := bytes2 (n.getD 0xFFFF)

/-- A time or terminal minute, or 0xFFFFFFFF where it is absent (R199). -/
def bytes4OrAbsent (n : Option Nat) : List Byte := bytes4 (n.getD 0xFFFFFFFF)

/-- A card, or 0 where it is absent (R199). -/
def bytesCard (card : Option Nat) : List Byte := bytes4 (card.getD 0)

/-- A substance code, or 0 for EMPTY (R199). -/
def bytesSubstance (code : Option Nat) : List Byte := bytes2 (code.getD 0)

/-- An index of one byte, or 0xFF where it is absent (R199). -/
def byteIndex {n : Nat} (i : Option (Fin n)) : List Byte := byte1 ((i.map Fin.val).getD 0xFF)

/-- A sequence number, or the free value where it is absent (log 9). -/
def bytesSequence (n : Option Nat) : List Byte := bytes4 (n.getD Config.absentSequence.toNat)

/-- One bit of the check word's division (R161): generator 0x1021, most significant bit first. -/
def crcBit (crc : BitVec 16) : BitVec 16 :=
  if crc.msb then (crc <<< 1) ^^^ 0x1021#16 else crc <<< 1

/-- One byte of the check word's division (R161). -/
def crcByte (crc : BitVec 16) (b : Byte) : BitVec 16 :=
  Nat.repeat crcBit 8 (crc ^^^ ((b.setWidth 16) <<< 8))

/-- The check word over a run of bytes (R161): starting value 0xFFFF, neither reflected nor inverted. -/
def checkWord (bytes : List Byte) : BitVec 16 := bytes.foldl crcByte 0xFFFF#16

/-- A run of bytes followed by its check word, most significant byte first (R161). -/
def withCheckWord (bytes : List Byte) : List Byte := bytes ++ bytes2 (checkWord bytes).toNat

/-! ## Enumerations (R199) -/

def Mode.code : Mode → Nat
  | .config => 0 | .listen => 1 | .run => 2

def Mode.ofCode (b : Byte) : Option Mode :=
  if b = 0 then some .config else if b = 1 then some .listen else if b = 2 then some .run else none

def Status.code : Status → Nat
  | .rest => 0 | .duty => 1 | .drive => 2

def Status.ofCode (b : Byte) : Option Status :=
  if b = 0 then some .rest else if b = 1 then some .duty else if b = 2 then some .drive else none

def AccountState.code : AccountState → Nat
  | .free => 0 | .active => 1 | .suspended => 2

def ProfileLetter.code : ProfileLetter → Nat
  | .a => 0 | .b => 1

def ProfileLetter.ofCode (b : Byte) : Option ProfileLetter :=
  if b = 0 then some .a else if b = 1 then some .b else none

def FolderState.code : FolderState → Nat
  | .free => 0 | .opened => 1 | .papered => 2 | .assigned => 3 | .loading => 4 | .amendWait => 5 | .held => 6
  | .ready => 7 | .released => 8

def LoadingState.code : LoadingState → Nat
  | .empty => 0 | .planned => 1 | .permitted => 2 | .flowing => 3 | .stopped => 4 | .settled => 5 | .loaded => 6
  | .unsettled => 7 | .interrupted => 8 | .skipped => 9

/-- The code of a result; absent is 0. -/
def resultCode : Option Result → Nat
  | none => 0 | some .matched => 1 | some .amend => 2 | some .mismatch => 3 | some .fault => 4

/-- The flowing indication: stopped 0, flowing 1. -/
def flowingOfCode (b : Byte) : Option Bool :=
  if b = 0 then some false else if b = 1 then some true else none

def Ruling.code : Ruling → Nat
  | .ok => 0 | .apart => 1 | .never => 2

def Ruling.ofCode (b : Byte) : Option Ruling :=
  if b = 0 then some .ok else if b = 1 then some .apart else if b = 2 then some .never else none

/-- A rights cell: DENY 0, ALLOW 1. -/
def allowOfCode (b : Byte) : Option Bool :=
  if b = 0 then some false else if b = 1 then some true else none

def AlarmKind.code : AlarmKind → Nat
  | .warn => 0 | .limit => 1 | .window => 2

def NodeState.code : NodeState → Nat
  | .unknown => 0 | .present => 1 | .warning => 2 | .absent => 3 | .isolated => 4

def LogKind.code : LogKind → Nat
  | .dispatch => 1 | .dispatchOverride => 2 | .voided => 3

def StopReason.code : StopReason → Nat
  | .overfill => 1 | .overload => 2 | .voided => 3

def StartKind.code : StartKind → Nat
  | .cold => 0 | .warm => 1

def StartCause.code : StartCause → Nat
  | .power => 0 | .clearAll => 1 | .reset => 2

def Role.code : Role → Nat
  | .office => 0 | .supervisor => 1 | .gate => 2 | .bay n => 16 + n.val

/-- The bit of an alarm flag. -/
def AlarmFlag.bit : AlarmFlag → Nat
  | .warn => 0 | .overRun => 1 | .overWindow => 2 | .expired => 3 | .late => 4

/-- The bit of an attention flag. -/
def AttentionFlag.bit : AttentionFlag → Nat
  | .clock => 0 | .restart => 1 | .node => 2 | .alarm => 3 | .folder => 4 | .log => 5 | .access => 6 | .mode => 7

/-- The bit of an operation group, in the order of R147. -/
def OperationGroup.bit : OperationGroup → Nat
  | .statusSet => 0 | .accountEdit => 1 | .folderEdit => 2 | .assign => 3 | .amend => 4 | .finish => 5 | .voiding => 6
  | .logAck => 7 | .time => 8 | .nodeAdmin => 9

/-- Reason codes (12, "Reason codes"). -/
def Reason.code : Reason → Nat
  | .deniedRole => 1 | .deniedWindow => 2 | .badState => 3 | .format => 4 | .range => 5 | .full => 6 | .mode => 7
  | .unknownDriver => 8 | .cardInUse => 9 | .expired => 10 | .suspended => 11 | .driverBusy => 12 | .bayBusy => 13
  | .wrongCard => 14 | .unknownSubstance => 15 | .fillLimit => 16 | .papers => 17 | .incompatible => 18
  | .endorsement => 19 | .hoursDrive => 20 | .hoursCycle => 21 | .placard => 22 | .logFull => 23 | .arms => 24
  | .inProgress => 25 | .inUse => 26 | .noClock => 27 | .timeBack => 28 | .future => 29

/-- A result code: OK is 0. -/
def resultCodeOf (r : Option Reason) : Nat := (r.map Reason.code).getD 0

/-- A reason set: bit n for the reason of code n (12, "Reason codes"). -/
def reasonSet (reasons : List Reason) : MemberSet 32 := reasons.foldl (fun set r => withMember set r.code) 0

/-- Message kinds (12, "Rack-link layouts"): code, and frame length with the check word. -/
def kindRow : MessageKind → Byte × Nat
  | .idle => (0x00, 4)
  | .card => (0x01, 12)
  | .start => (0x02, 6)
  | .total => (0x03, 9)
  | .ending => (0x04, 6)
  | .done => (0x05, 5)
  | .entry => (0x06, 8)
  | .release => (0x07, 7)
  | .exit => (0x08, 5)

def messageKinds : List MessageKind := [.idle, .card, .start, .total, .ending, .done, .entry, .release, .exit]

/-- The kind a code names, if it names one. -/
def kindOfCode (code : Byte) : Option MessageKind := messageKinds.find? (fun k => (kindRow k).1 == code)

/-! ## Office commands -/

/-- The classes of R148. -/
inductive CommandClass where
  | grouped (g : OperationGroup)
  | supervisorOnly
  | tableEdit
  | modeRequest
  | portCommand
  | read
deriving DecidableEq, Repr

/-- The command code table (12, "Command codes"): code, class and argument length. SET TIME's class depends on its
arguments (R150); the class here is the one it has when it lowers nothing. -/
def commandRow : OfficeCommand → Byte × CommandClass × Nat
  | .openAccount => (0x10, .grouped .accountEdit, 8)
  | .editAccount => (0x11, .grouped .accountEdit, 9)
  | .suspendAccount => (0x12, .grouped .accountEdit, 1)
  | .resumeAccount => (0x13, .grouped .accountEdit, 1)
  | .closeAccount => (0x14, .grouped .accountEdit, 1)
  | .setStatus => (0x15, .grouped .statusSet, 6)
  | .clearLate => (0x16, .grouped .statusSet, 1)
  | .readAccount => (0x17, .read, 1)
  | .findCard => (0x18, .read, 4)
  | .setProfile => (0x20, .tableEdit, 15)
  | .cancelPendingProfile => (0x21, .tableEdit, 1)
  | .readProfile => (0x22, .read, 1)
  | .readAllowance => (0x23, .read, 1)
  | .hoursCheck => (0x24, .read, 1)
  | .setTime => (0x28, .grouped .time, 6)
  | .adjustTime => (0x29, .grouped .time, 2)
  | .readTime => (0x2A, .read, 0)
  | .readAlarms => (0x2B, .read, 1)
  | .createFolder => (0x30, .grouped .folderEdit, 23)
  | .setCompartment => (0x31, .grouped .folderEdit, 8)
  | .setPapers => (0x32, .grouped .folderEdit, 20)
  | .setTrip => (0x33, .grouped .folderEdit, 5)
  | .submit => (0x34, .grouped .folderEdit, 1)
  | .reopen => (0x35, .grouped .folderEdit, 1)
  | .assignBay => (0x36, .grouped .assign, 2)
  | .unassign => (0x37, .grouped .assign, 1)
  | .amend => (0x38, .grouped .amend, 4)
  | .overrideFolder => (0x39, .supervisorOnly, 1)
  | .voidFolder => (0x3A, .grouped .voiding, 1)
  | .finishLoading => (0x3B, .grouped .finish, 1)
  | .readFolder => (0x3C, .read, 1)
  | .readCompartment => (0x3D, .read, 2)
  | .nextFlaggedFolder => (0x3E, .read, 0)
  | .setSubstance => (0x48, .tableEdit, 6)
  | .clearSubstance => (0x49, .tableEdit, 2)
  | .readSubstance => (0x4A, .read, 2)
  | .listSubstances => (0x4B, .read, 1)
  | .setMatrixPair => (0x4C, .tableEdit, 3)
  | .readMatrix => (0x4D, .read, 1)
  | .setThreshold => (0x4E, .tableEdit, 3)
  | .readThresholds => (0x4F, .read, 0)
  | .setMetering => (0x50, .tableEdit, 10)
  | .readMetering => (0x51, .read, 0)
  | .readLogOldest => (0x58, .read, 0)
  | .readLog => (0x59, .read, 4)
  | .ackLog => (0x5A, .grouped .logAck, 4)
  | .logStatus => (0x5B, .read, 0)
  | .setLogWarning => (0x5C, .tableEdit, 2)
  | .setRights => (0x60, .supervisorOnly, 3)
  | .readRights => (0x61, .read, 0)
  | .readDenials => (0x62, .read, 0)
  | .setLink => (0x68, .tableEdit, 5)
  | .readmitNode => (0x69, .grouped .nodeAdmin, 1)
  | .readLink => (0x6A, .read, 0)
  | .readReply => (0x70, .read, 0)
  | .ackAttention => (0x71, .portCommand, 2)
  | .setEnables => (0x72, .portCommand, 4)
  | .readAttention => (0x73, .read, 0)
  | .nextFlaggedAccount => (0x74, .read, 0)
  | .requestMode => (0x78, .modeRequest, 1)
  | .readMode => (0x79, .read, 0)
  | .clearAll => (0x7A, .supervisorOnly, 0)

/-- The code of an office command. -/
def officeCode (c : OfficeCommand) : Byte := (commandRow c).1

/-- The class of an office command by its code. -/
def officeClass (c : OfficeCommand) : CommandClass := (commandRow c).2.1

/-- The argument length an office command takes. -/
def officeLength (c : OfficeCommand) : Nat := (commandRow c).2.2

/-- Every office command, in the order of the table. -/
def officeCommands : List OfficeCommand :=
  [.openAccount, .editAccount, .suspendAccount, .resumeAccount, .closeAccount, .setStatus, .clearLate,
   .readAccount, .findCard, .setProfile, .cancelPendingProfile, .readProfile, .readAllowance, .hoursCheck,
   .setTime, .adjustTime, .readTime, .readAlarms, .createFolder, .setCompartment, .setPapers, .setTrip, .submit,
   .reopen, .assignBay, .unassign, .amend, .overrideFolder, .voidFolder, .finishLoading, .readFolder,
   .readCompartment, .nextFlaggedFolder, .setSubstance, .clearSubstance, .readSubstance, .listSubstances,
   .setMatrixPair, .readMatrix, .setThreshold, .readThresholds, .setMetering, .readMetering, .readLogOldest,
   .readLog, .ackLog, .logStatus, .setLogWarning, .setRights, .readRights, .readDenials, .setLink, .readmitNode,
   .readLink, .readReply, .ackAttention, .setEnables, .readAttention, .nextFlaggedAccount, .requestMode,
   .readMode, .clearAll]

/-- The command a code names, if it names one. -/
def officeOfCode (code : Byte) : Option OfficeCommand := officeCommands.find? (fun c => officeCode c == code)

end Sys2Proof.Machine
end

