-- ==== Sys2Proof/WellFormed.lean ====
section
/-! DEFINITION. Well-formed commands: what the operands' types leave open. A frame event that is no other command's
frame is what its row says it is (R175, R177, R200). -/

namespace Sys2Proof

open Sys2Proof.Machine

/-- Does a code with a length byte name a command (R177, step 2)? -/
def namesCommand (code length : Byte) : Bool :=
  (officeOfCode code).any (fun c => officeLength c == length.toNat)

/-- Is a run of whole bytes an incomplete frame (R175)? -/
def incompleteFrame : List Byte → Bool
  | _ :: _ :: length :: rest => decide (length.toNat ≤ 64) && decide (rest.length < length.toNat)
  | _ => true

/-- Is a good frame's body, its bytes before the check word, that of a kind of the frame table (R200)? -/
def namesKind (body : List Byte) : Bool :=
  (body.head?.bind kindOfCode).any (fun k => (kindRow k).2 == body.length + 2)

/-- A well-formed command: a frame event of no command's form has none. -/
def Instr.wf : Instr → Bool
  | .unknownCommandCode _ code length => !namesCommand code length
  | .droppedFrame bytes _ => incompleteFrame bytes
  | .malformedFrame _ _ body => !namesKind body
  | _ => true

end Sys2Proof
end

