-- ==== Sys2Proof/Decode.lean ====
section
/-! DEFINITION. Reading commands from what the ports carry. The opcode table gives no row a bit pattern, so no table word
spells a command. Commands do come as bytes: an office transaction (R175, R177, R199) and a slot's reception (R161,
R199, R200) are read here into the command they are, and written back. -/

namespace Sys2Proof

open Sys2Proof.Machine

/-- The command that a word spells by the bits of spec/opcode_table.json: no row gives bits, so none (log 27). -/
def decodeTableWord (_nbits _w : Nat) : Option Instr := none

/-! ## Fields (R199): most significant byte first -/

/-- The byte at a place. -/
def byteAt (bytes : List Byte) (k : Nat) : Byte := bytes.getD k 0

/-- The two-byte field at a place. -/
def wordAt (bytes : List Byte) (k : Nat) : BitVec 16 :=
  BitVec.ofNat 16 ((byteAt bytes k).toNat * 256 + (byteAt bytes (k + 1)).toNat)

/-- The four-byte field at a place. -/
def longAt (bytes : List Byte) (k : Nat) : BitVec 32 :=
  BitVec.ofNat 32 ((wordAt bytes k).toNat * 65536 + (wordAt bytes (k + 2)).toNat)

/-- Six two-byte slots at a place (12, CREATE FOLDER). -/
def capacitiesAt (bytes : List Byte) (k : Nat) : Vector (BitVec 16) 6 := tabulate 6 (fun j => wordAt bytes (k + 2 * j.val))

/-- Six slots of code and compartment set at a place (12, SET PAPERS). -/
def linesAt (bytes : List Byte) (k : Nat) : Vector (BitVec 16 × Byte) 6 :=
  tabulate 6 (fun j => (wordAt bytes (k + 3 * j.val), byteAt bytes (k + 3 * j.val + 2)))

def wordBytes (w : BitVec 16) : List Byte := bytes2 w.toNat

def longBytes (w : BitVec 32) : List Byte := bytes4 w.toNat

def capacityBytes (slots : Vector (BitVec 16) 6) : List Byte := slots.toList.flatMap wordBytes

def lineBytes (slots : Vector (BitVec 16 × Byte) 6) : List Byte := slots.toList.flatMap (fun p => wordBytes p.1 ++ [p.2])

/-! ## The office port -/

/-- A command from its argument bytes. The order of the fields is the spec's for SET PROFILE, SET METERING, CREATE FOLDER
and SET PAPERS (12, "Command codes"). For every other command of more than one argument it is a DESIGN CHOICE: the order
in which the owning rule names the arguments (log 28). -/
def officeInstr (c : OfficeCommand) (o : OfficeFrame) (a : List Byte) : Instr :=
  match c with
  | .openAccount => .openAccount o (longAt a 0) (byteAt a 4) (byteAt a 5) (wordAt a 6)
  | .editAccount => .editAccount o (byteAt a 0) (longAt a 1) (byteAt a 5) (byteAt a 6) (wordAt a 7)
  | .suspendAccount => .suspendAccount o (byteAt a 0)
  | .resumeAccount => .resumeAccount o (byteAt a 0)
  | .closeAccount => .closeAccount o (byteAt a 0)
  | .setStatus => .setStatus o (byteAt a 0) (byteAt a 1) (longAt a 2)
  | .clearLate => .clearLate o (byteAt a 0)
  | .readAccount => .readAccount o (byteAt a 0)
  | .findCard => .findCard o (longAt a 0)
  | .setProfile => .setProfile o (byteAt a 0) (wordAt a 1) (wordAt a 3) (wordAt a 5) (wordAt a 7) (wordAt a 9)
      (wordAt a 11) (wordAt a 13)
  | .cancelPendingProfile => .cancelPendingProfile o (byteAt a 0)
  | .readProfile => .readProfile o (byteAt a 0)
  | .readAllowance => .readAllowance o (byteAt a 0)
  | .hoursCheck => .hoursCheck o (byteAt a 0)
  | .setTime => .setTime o (longAt a 0) (wordAt a 4)
  | .adjustTime => .adjustTime o (wordAt a 0)
  | .readTime => .readTime o
  | .readAlarms => .readAlarms o (byteAt a 0)
  | .createFolder => .createFolder o (longAt a 0) (byteAt a 4) (byteAt a 5) (wordAt a 6) (wordAt a 8)
      (byteAt a 10) (capacitiesAt a 11)
  | .setCompartment => .setCompartment o (byteAt a 0) (byteAt a 1) (wordAt a 2) (wordAt a 4) (wordAt a 6)
  | .setPapers => .setPapers o (byteAt a 0) (byteAt a 1) (linesAt a 2)
  | .setTrip => .setTrip o (byteAt a 0) (wordAt a 1) (wordAt a 3)
  | .submit => .submit o (byteAt a 0)
  | .reopen => .reopen o (byteAt a 0)
  | .assignBay => .assignBay o (byteAt a 0) (byteAt a 1)
  | .unassign => .unassign o (byteAt a 0)
  | .amend => .amend o (byteAt a 0) (byteAt a 1) (wordAt a 2)
  | .overrideFolder => .overrideFolder o (byteAt a 0)
  | .voidFolder => .voidFolder o (byteAt a 0)
  | .finishLoading => .finishLoading o (byteAt a 0)
  | .readFolder => .readFolder o (byteAt a 0)
  | .readCompartment => .readCompartment o (byteAt a 0) (byteAt a 1)
  | .nextFlaggedFolder => .nextFlaggedFolder o
  | .setSubstance => .setSubstance o (wordAt a 0) (byteAt a 2) (byteAt a 3) (wordAt a 4)
  | .clearSubstance => .clearSubstance o (wordAt a 0)
  | .readSubstance => .readSubstance o (wordAt a 0)
  | .listSubstances => .listSubstances o (byteAt a 0)
  | .setMatrixPair => .setMatrixPair o (byteAt a 0) (byteAt a 1) (byteAt a 2)
  | .readMatrix => .readMatrix o (byteAt a 0)
  | .setThreshold => .setThreshold o (byteAt a 0) (wordAt a 1)
  | .readThresholds => .readThresholds o
  | .setMetering => .setMetering o (byteAt a 0) (byteAt a 1) (byteAt a 2) (byteAt a 3) (byteAt a 4) (wordAt a 5)
      (byteAt a 7) (wordAt a 8)
  | .readMetering => .readMetering o
  | .readLogOldest => .readLogOldest o
  | .readLog => .readLog o (longAt a 0)
  | .ackLog => .ackLog o (longAt a 0)
  | .logStatus => .logStatus o
  | .setLogWarning => .setLogWarning o (wordAt a 0)
  | .setRights => .setRights o (wordAt a 0) (byteAt a 2)
  | .readRights => .readRights o
  | .readDenials => .readDenials o
  | .setLink => .setLink o (wordAt a 0) (byteAt a 2) (wordAt a 3)
  | .readmitNode => .readmitNode o (byteAt a 0)
  | .readLink => .readLink o
  | .readReply => .readReply o
  | .ackAttention => .ackAttention o (wordAt a 0)
  | .setEnables => .setEnables o (wordAt a 0) (wordAt a 2)
  | .readAttention => .readAttention o
  | .nextFlaggedAccount => .nextFlaggedAccount o
  | .requestMode => .requestMode o (byteAt a 0)
  | .readMode => .readMode o
  | .clearAll => .clearAll o

/-- The command that an office transaction begun with the port idle is, from its whole bytes and the bits of a byte cut
off by the rise of OSEL (R175, R177): a dropped frame, a frame that names no command, or the command it names. -/
def decodeTransaction (skey : Bool) (moment : OfficeMoment) (bytes : List Byte) (bits : Fin 8) : Instr :=
  match bytes with
  | code :: tag :: length :: rest =>
    if 64 < length.toNat then .unknownCommandCode ⟨tag, skey, moment, rest.length⟩ code length
    else if rest.length < length.toNat then .droppedFrame bytes bits
    else
      let o : OfficeFrame := ⟨tag, skey, moment, rest.length - length.toNat⟩
      match officeOfCode code with
      | some c =>
        if officeLength c = length.toNat then officeInstr c o (rest.take length.toNat)
        else .unknownCommandCode o code length
      | none => .unknownCommandCode o code length
  | _ => .droppedFrame bytes bits

/-- An office command's frame, code and argument bytes; nothing for the other commands. -/
def officeParts : Instr → Option (OfficeFrame × OfficeCommand × List Byte)
  | .openAccount o card profile endorsements expiry => some (o, .openAccount, longBytes card ++ [profile]
      ++ [endorsements] ++ wordBytes expiry)
  | .editAccount o index card profile endorsements expiry => some (o, .editAccount, [index] ++ longBytes card
      ++ [profile] ++ [endorsements] ++ wordBytes expiry)
  | .suspendAccount o index => some (o, .suspendAccount, [index])
  | .resumeAccount o index => some (o, .resumeAccount, [index])
  | .closeAccount o index => some (o, .closeAccount, [index])
  | .setStatus o index status time => some (o, .setStatus, [index] ++ [status] ++ longBytes time)
  | .clearLate o index => some (o, .clearLate, [index])
  | .readAccount o index => some (o, .readAccount, [index])
  | .findCard o card => some (o, .findCard, longBytes card)
  | .setProfile o letter dMax wMax bMax brkMin rMin cMax warnLead => some (o, .setProfile, [letter]
      ++ wordBytes dMax ++ wordBytes wMax ++ wordBytes bMax ++ wordBytes brkMin ++ wordBytes rMin ++ wordBytes cMax ++ wordBytes warnLead)
  | .cancelPendingProfile o letter => some (o, .cancelPendingProfile, [letter])
  | .readProfile o letter => some (o, .readProfile, [letter])
  | .readAllowance o index => some (o, .readAllowance, [index])
  | .hoursCheck o folder => some (o, .hoursCheck, [folder])
  | .setTime o value offset => some (o, .setTime, longBytes value ++ wordBytes offset)
  | .adjustTime o seconds => some (o, .adjustTime, wordBytes seconds)
  | .readTime o => some (o, .readTime, [])
  | .readAlarms o position => some (o, .readAlarms, [position])
  | .createFolder o tanker primary second drive duty count capacities => some (o, .createFolder, longBytes tanker ++ [primary] ++ [second] ++ wordBytes drive ++ wordBytes duty ++ [count] ++ capacityBytes capacities
     )
  | .setCompartment o folder compartment capacity substance declared => some (o, .setCompartment, [folder]
      ++ [compartment] ++ wordBytes capacity ++ wordBytes substance ++ wordBytes declared)
  | .setPapers o folder count lines => some (o, .setPapers, [folder] ++ [count] ++ lineBytes lines)
  | .setTrip o folder drive duty => some (o, .setTrip, [folder] ++ wordBytes drive ++ wordBytes duty)
  | .submit o folder => some (o, .submit, [folder])
  | .reopen o folder => some (o, .reopen, [folder])
  | .assignBay o folder bay => some (o, .assignBay, [folder] ++ [bay])
  | .unassign o folder => some (o, .unassign, [folder])
  | .amend o folder compartment declared => some (o, .amend, [folder] ++ [compartment] ++ wordBytes declared)
  | .overrideFolder o folder => some (o, .overrideFolder, [folder])
  | .voidFolder o folder => some (o, .voidFolder, [folder])
  | .finishLoading o folder => some (o, .finishLoading, [folder])
  | .readFolder o folder => some (o, .readFolder, [folder])
  | .readCompartment o folder compartment => some (o, .readCompartment, [folder] ++ [compartment])
  | .nextFlaggedFolder o => some (o, .nextFlaggedFolder, [])
  | .setSubstance o code group cls fill => some (o, .setSubstance, wordBytes code ++ [group] ++ [cls]
      ++ wordBytes fill)
  | .clearSubstance o code => some (o, .clearSubstance, wordBytes code)
  | .readSubstance o code => some (o, .readSubstance, wordBytes code)
  | .listSubstances o position => some (o, .listSubstances, [position])
  | .setMatrixPair o g h ruling => some (o, .setMatrixPair, [g] ++ [h] ++ [ruling])
  | .readMatrix o g => some (o, .readMatrix, [g])
  | .setThreshold o group quantity => some (o, .setThreshold, [group] ++ wordBytes quantity)
  | .readThresholds o => some (o, .readThresholds, [])
  | .setMetering o arms settleMin settleBand settleMax passTenths passFloor amendTenths amendFloor => some (o, .setMetering, [arms] ++ [settleMin] ++ [settleBand] ++ [settleMax] ++ [passTenths] ++ wordBytes passFloor ++ [amendTenths] ++ wordBytes amendFloor
     )
  | .readMetering o => some (o, .readMetering, [])
  | .readLogOldest o => some (o, .readLogOldest, [])
  | .readLog o sequence => some (o, .readLog, longBytes sequence)
  | .ackLog o sequence => some (o, .ackLog, longBytes sequence)
  | .logStatus o => some (o, .logStatus, [])
  | .setLogWarning o level => some (o, .setLogWarning, wordBytes level)
  | .setRights o groups value => some (o, .setRights, wordBytes groups ++ [value])
  | .readRights o => some (o, .readRights, [])
  | .readDenials o => some (o, .readDenials, [])
  | .setLink o period silence enrolled => some (o, .setLink, wordBytes period ++ [silence] ++ wordBytes enrolled)
  | .readmitNode o node => some (o, .readmitNode, [node])
  | .readLink o => some (o, .readLink, [])
  | .readReply o => some (o, .readReply, [])
  | .ackAttention o flags => some (o, .ackAttention, wordBytes flags)
  | .setEnables o mask value => some (o, .setEnables, wordBytes mask ++ wordBytes value)
  | .readAttention o => some (o, .readAttention, [])
  | .nextFlaggedAccount o => some (o, .nextFlaggedAccount, [])
  | .requestMode o target => some (o, .requestMode, [target])
  | .readMode o => some (o, .readMode, [])
  | .clearAll o => some (o, .clearAll, [])
  | .unknownCommandCode _ _ _ | .droppedFrame _ _ | .busyTransaction _ | .card _ _ _ | .start _ _ _ | .total _ _ _ _ _
  | .endCompartment _ _ _ | .doneLoading _ _ | .entry _ _ | .release _ _ _ | .exit _ _ | .idle _
  | .malformedFrame _ _ _ | .damagedFrame _ | .emptySlot _ | .beacon | .minuteBoundary | .dayBoundary | .coldStart
  | .warmStart _ | .resetAsserted | .powerFail | .clockSecondCount => none

/-- The bytes of an office command's transaction: code, tag, argument length, arguments (R175), then the whole bytes
clocked after the complete frame, as zero bytes. -/
def encodeOffice (i : Instr) : Option (List Byte) :=
  (officeParts i).map (fun p => [officeCode p.2.1, p.1.tag, BitVec.ofNat 8 p.2.2.length] ++ p.2.2 ++ zeroBytes p.1.extra)

/-! ## The rack link -/

/-- What the part received in a slot (R161): no start of reception, or bytes, whole unless cut off or running past the
end of the slot. -/
inductive Reception where
  | nothing
  | bytes (frame : List Byte) (whole : Bool)
deriving DecidableEq, Repr

/-- A request from the fields after kind and tag (12, "Rack-link layouts"). -/
def linkInstr (k : MessageKind) (l : LinkFrame) (a : List Byte) : Instr :=
  match k with
  | .idle => .idle l
  | .card => .card l (longAt a 0) (longAt a 4)
  | .start => .start l (byteAt a 0) (byteAt a 1)
  | .total => .total l (byteAt a 0) (byteAt a 1) (wordAt a 2) (byteAt a 4)
  | .ending => .endCompartment l (byteAt a 0) (byteAt a 1)
  | .done => .doneLoading l (byteAt a 0)
  | .entry => .entry l (longAt a 0)
  | .release => .release l (byteAt a 0) (wordAt a 1)
  | .exit => .exit l (byteAt a 0)

/-- A good frame from its body, the bytes before the check word (R161, R200). -/
def decodeBody (node : Fin 9) (moment : SlotMoment) (body : List Byte) : Instr :=
  match body with
  | code :: tag :: fields =>
    match kindOfCode code with
    | some k =>
      if (kindRow k).2 = body.length + 2 then linkInstr k ⟨node, tag, moment⟩ fields else .malformedFrame node moment body
    | none => .malformedFrame node moment body
  | _ => .malformedFrame node moment body

/-- Does a frame's check word match (R161)? -/
def checkWordOk (frame : List Byte) : Bool :=
  decide (2 ≤ frame.length) && withCheckWord (frame.take (frame.length - 2)) == frame

/-- The slot event that a reception in node `node`'s slot is (R161). -/
def decodeSlot (node : Fin 9) (moment : SlotMoment) : Reception → Instr
  | .nothing => .emptySlot node
  | .bytes frame whole =>
    if whole && checkWordOk frame then decodeBody node moment (frame.take (frame.length - 2)) else .damagedFrame node

/-- A request's frame, kind and fields; nothing for the other commands. -/
def linkParts : Instr → Option (LinkFrame × MessageKind × List Byte)
  | .idle l => some (l, .idle, [])
  | .card l tanker number => some (l, .card, longBytes tanker ++ longBytes number)
  | .start l folder compartment => some (l, .start, [folder] ++ [compartment])
  | .total l folder compartment litres flowing =>
    some (l, .total, [folder] ++ [compartment] ++ wordBytes litres ++ [flowing])
  | .endCompartment l folder compartment => some (l, .ending, [folder] ++ [compartment])
  | .doneLoading l folder => some (l, .done, [folder])
  | .entry l number => some (l, .entry, longBytes number)
  | .release l folder placards => some (l, .release, [folder] ++ wordBytes placards)
  | .exit l folder => some (l, .exit, [folder])
  | _ => none

/-- The bytes of a request's frame, its check word last (R161, R199). -/
def encodeLink (i : Instr) : Option (List Byte) :=
  (linkParts i).map (fun p => withCheckWord ([(kindRow p.2.1).1, p.1.tag] ++ p.2.2))

end Sys2Proof
end

