-- ==== Sys2Proof/Machine/Ops.lean ====
section
/-! DEFINITION. Named operations over the records of State: reading and writing one account, folder, profile or node;
minutes and days; the high-water time; arrivals and what is under way at the ports (R44, R168, R169, R176); passes over
all accounts and all folders. -/

namespace Sys2Proof.Machine

/-! ## Records by index -/

def State.account (s : State) (i : Fin 64) : Account := s.accounts[i]

def State.setAccount (s : State) (i : Fin 64) (a : Account) : State := { s with accounts := s.accounts.set i a }

def State.folder (s : State) (f : Fin 16) : Folder := s.folders[f]

def State.setFolder (s : State) (f : Fin 16) (x : Folder) : State := { s with folders := s.folders.set f x }

def State.node (s : State) (n : Fin 9) : NodeEntry := s.rlc.nodes[n]

def State.setNode (s : State) (n : Fin 9) (e : NodeEntry) : State :=
  { s with rlc := { s.rlc with nodes := s.rlc.nodes.set n e } }

def State.profile (s : State) : ProfileLetter → LimitProfile
  | .a => s.hu.profileA
  | .b => s.hu.profileB

def State.setProfile (s : State) (p : ProfileLetter) (x : LimitProfile) : State :=
  match p with
  | .a => { s with hu := { s.hu with profileA := x } }
  | .b => { s with hu := { s.hu with profileB := x } }

/-- The active limits an account is read against (R23). -/
def State.limitsOf (s : State) (a : Account) : Limits := (s.profile a.profile).active

def State.setAlarms (s : State) (entries : List AlarmEntry) : State := { s with hu := { s.hu with alarms := entries } }

def State.setMode (s : State) (m : Mode) : State := { s with mc := { s.mc with mode := m } }

def State.setPendingTarget (s : State) (t : Option Mode) : State := { s with mc := { s.mc with pendingTarget := t } }

/-- One compartment of a folder replaced. -/
def Folder.setCompartment (x : Folder) (k : Nat) (c : Compartment) : Folder :=
  { x with compartments := x.compartments.set k c }

/-! ## Time (R45) -/

/-- The largest clock value (R44). -/
def maxClock : Nat := 4294967294

/-- The terminal minute of a clock value. -/
def minuteOf (clock : Nat) : Nat := clock / 60

/-- The day number of a terminal minute under a day offset. -/
def dayOf (offset minute : Nat) : Nat := (minute + 1440 - offset) / 1440

/-- The clock's present minute. -/
def State.minute (s : State) : Nat := minuteOf s.tc.clock

/-- The day number of the clock's present minute. -/
def State.today (s : State) : Nat := dayOf s.tc.dayOffset s.minute

/-- The day number of a minute under the day offset held. -/
def State.dayOfMinute (s : State) (m : Nat) : Nat := dayOf s.tc.dayOffset m

/-- The high-water time is raised to a written time when that is higher (R46). -/
def State.raiseHighWater (s : State) (time : Nat) : State :=
  { s with tc := { s.tc with highWater := max s.tc.highWater time } }

def State.setTreatedDay (s : State) (day : Nat) : State := { s with tc := { s.tc with treatedDay := day } }

def State.setMinuteDue (s : State) (due : Bool) : State := { s with tc := { s.tc with minuteDue := due } }

/-! ## Arrivals (R44) -/

/-- The arrival second of the office command being handled: the one stamped at the rise of OSEL, which is now where
nothing fell between the rise and the handling (R44). The clock does not go back between them, and the handling ends
within 2 ms of the rise (R176), so at most one second is counted between them (log 1). -/
def State.officeArrival (s : State) : Nat :=
  match s.underway.risen with
  | some taking => min (max taking.second (s.tc.clock - 1)) s.tc.clock
  | none => s.tc.clock

/-- The high-water time as it stood when the office command being handled was taken (R53). -/
def State.highWaterTaken (s : State) : Nat :=
  match s.underway.risen with
  | some taking => taking.highWater
  | none => s.tc.highWater

/-- The arrival of the frame in node `n`'s slot, if it came before the events just handled. -/
def State.received (s : State) (n : Fin 9) : Option Arrival :=
  match s.underway.frame with
  | some a => if a.node = n then some a else none
  | none => none

/-- The arrival second of the frame in node `n`'s slot (R44): the one stamped at the end of its reception, which is now
where nothing fell between that and the end of its slot. It is never later than the clock (log 1). -/
def State.frameArrival (s : State) (n : Fin 9) : Nat :=
  match s.received n with
  | some a => min a.second s.tc.clock
  | none => s.tc.clock

/-- The mode at the arrival of the frame in node `n`'s slot (R168, R188). -/
def State.arrivalMode (s : State) (n : Fin 9) : Mode :=
  match s.received n with
  | some a => a.mode
  | none => s.mc.mode

/-- Was a mode change pending at the arrival of the frame in node `n`'s slot (R82, R192)? -/
def State.arrivalPending (s : State) (n : Fin 9) : Bool :=
  match s.received n with
  | some a => a.changePending
  | none => s.mc.pendingTarget.isSome

/-- Has a mode change that was pending at the arrival of the frame in node `n`'s slot taken the part out of RUN since (R82,
R191)? -/
def State.leftRunSince (s : State) (n : Fin 9) : Bool := s.arrivalPending n && s.mc.mode != .run

/-- The reception of a frame in node `n`'s slot ends: its arrival is stamped (R44), and the mode that decides its taking
(R168, R188) and the pending change it meets (R82, R192) stand. -/
def State.frameReceived (s : State) (n : Fin 9) : State :=
  { s with underway := { s.underway with frame := some ⟨n, s.tc.clock, s.mc.mode, s.mc.pendingTarget.isSome⟩ } }

/-- Is a transaction begun with the port idle being shifted: OSEL has fallen and has not risen (R176, R178)? -/
def Underway.shifting (u : Underway) : Bool := u.summary.isSome && u.risen.isNone

/-- A slot has ended: no frame waits for the end of its slot. -/
def State.slotClosed (s : State) : State := { s with underway := { s.underway with frame := none } }

/-- What is under way is discarded: RESET has fallen, or a start has been made (R197). A transaction that is being shifted
then, its OSEL not yet risen, is not taken any more: it ends as one begun while the port is busy (R176, R197). -/
def State.discardUnderway (s : State) : State :=
  { s with underway := ⟨none, s.underway.refused || s.underway.shifting, none, none⟩ }

/-- Nothing is under way: VDD has fallen or risen (R194). -/
def State.nothingUnderway (s : State) : State := { s with underway := ⟨none, false, none, none⟩ }

/-! ## Passes and lookups -/

/-- An operation on every account, in ascending index. -/
def overAccounts (f : Fin 64 → State → State) (s : State) : State := (List.finRange 64).foldl (fun s i => f i s) s

/-- An operation on every folder, in ascending number. -/
def overFolders (f : Fin 16 → State → State) (s : State) : State := (List.finRange 16).foldl (fun s i => f i s) s

/-- The non-FREE account that holds a card (R4). -/
def State.findCard (s : State) (card : Nat) : Option (Fin 64) :=
  lowest 64 (fun i => (s.account i).state != .free && (s.account i).card == some card)

/-- The folder that holds a bay (R71, R154). -/
def State.folderOfBay (s : State) (n : Fin 8) : Option (Fin 16) := lowest 16 (fun f => (s.folder f).bay == some n)

/-- How many folders are LOADING. -/
def State.loadingCount (s : State) : Nat :=
  ((List.finRange 16).filter (fun f => (s.folder f).state == .loading)).length

/-- A bay's node has the bay's number (00, "Reaching the part"). -/
def nodeOfBay (n : Fin 8) : Fin 9 := n.castSucc

/-- The bay a node serves: nodes 0 to 7 are bays, node 8 is the gate. -/
def bayOfNode (n : Fin 9) : Option (Fin 8) := if h : n.val < 8 then some ⟨n.val, h⟩ else none

/-- Is the part working: supplied, and RESET high (R194, R197)? -/
def State.running (s : State) : Bool := s.pins.powered && !s.pins.resetLow

end Sys2Proof.Machine
end

