-- ==== Sys2Proof/Machine/Flags.lean ====
section
/-! DEFINITION. Every flag computation of the part: account alarm flags with their unread mark (R18 to R21), attention
flags and enables, ATTN and the attention reason (R181, R182), the levels of LKDE (R197), the summary byte as formed and
as shown (R178). -/

namespace Sys2Proof.Machine

/-- An owner sets an attention flag (R181). -/
def setAttention (f : AttentionFlag) (s : State) : State :=
  { s with op := { s.op with flags := withMember s.op.flags f.bit } }

def Account.hasAlarm (a : Account) (f : AlarmFlag) : Bool := hasMember a.alarms f.bit

/-- Clearing an alarm flag changes neither unread nor ALARM (R20). -/
def Account.clearAlarm (a : Account) (f : AlarmFlag) : Account := { a with alarms := withoutMember a.alarms f.bit }

/-- An alarm flag newly set on a record sets its unread mark (R18). -/
def Account.setAlarm (a : Account) (f : AlarmFlag) : Account :=
  { a with alarms := withMember a.alarms f.bit, unread := true }

/-- Raising an alarm flag (R18): newly set, it sets unread and ALARM; already set, it leaves all three as they are. -/
def raiseAlarm (i : Fin 64) (f : AlarmFlag) (s : State) : State :=
  if (s.account i).hasAlarm f then s
  else setAttention .alarm (s.setAccount i ((s.account i).setAlarm f))

/-- The attention flags, highest priority first (R181). -/
def attentionFlags : List AttentionFlag := [.clock, .restart, .node, .alarm, .folder, .log, .access, .mode]

/-- The flag of highest priority among those set and enabled (R178). -/
def attentionReason (s : State) : Option AttentionFlag :=
  attentionFlags.find? (fun f => hasMember s.op.flags f.bit && hasMember s.op.enables f.bit)

/-- The code of the attention reason: 0 for none (12, "Office port layouts"). -/
def attentionReasonCode (s : State) : Nat := ((attentionReason s).map (fun f => f.bit + 1)).getD 0

/-- ATTN is asserted while some flag is set and enabled (R182); it is released while RESET is low (R197) and without
power (log 7). -/
def attnAsserted (s : State) : Bool := s.running && (attentionReason s).isSome

/-- The levels LKDE may have: inactive always, active only while the part works, since no beacon is sent and LKDE is
inactive while RESET is low (R197). When a beacon is being sent is timing (log 23). -/
def State.lkdeAllows (s : State) (active : Bool) : Bool := s.running || !active

/-- The summary byte (R178): mode, pending change, ATTN state, attention reason. -/
def summaryByte (s : State) : Byte :=
  BitVec.ofNat 8 (s.mc.mode.code * 64 + (if s.mc.pendingTarget.isSome then 32 else 0)
    + (if attnAsserted s then 16 else 0) + attentionReasonCode s)

/-- The summary byte the transaction being shifted shows: the one formed when OSEL fell, which is now where no event has
fallen since (R178). -/
def State.summaryShown (s : State) : Byte :=
  match s.underway.summary with
  | some b => b
  | none => summaryByte s

end Sys2Proof.Machine
end

