-- ==== Sys2Proof/Machine/Hours.lean ====
section
/-! DEFINITION. Hours: crediting of an interval into day buckets and shift figures (R14 to R16, R24), the view at a
minute with the lazy break and the lazy rest (R22, R25, R26), the allowance figures (R27 to R31) and the hours test
(R40). -/

namespace Sys2Proof.Machine

/-! ## Crediting -/

/-- The first terminal minute of a day number (R45). -/
def dayStart (offset day : Nat) : Nat := day * 1440 + offset - 1440

/-- How many minutes from `a` up to but not including `b` belong to a day (R15). -/
def pieceLength (offset a b day : Nat) : Nat :=
  min b (dayStart offset (day + 1)) - max a (dayStart offset day)

/-- A piece of `n` minutes of a day is written to the bucket at index day mod 8, zeroed and restamped first if it bears
another stamp; duty and drive minutes saturate at 1440 (R15). -/
def addPiece (driving : Bool) (day n : Nat) (buckets : Vector Bucket 8) : Vector Bucket 8 :=
  let index : Fin 8 := Fin.ofNat 8 day
  let held := buckets[index]
  let b : Bucket := if held.day = day then held else ⟨day, 0, 0⟩
  buckets.set index
    { b with duty := min 1440 (b.duty + n), drive := if driving then min 1440 (b.drive + n) else b.drive }

/-- The pieces of `count` days from `day` on, in ascending day order (R15). -/
def creditDays (offset a b : Nat) (driving : Bool) : Nat → Nat → Vector Bucket 8 → Vector Bucket 8
  | 0, _, buckets => buckets
  | count + 1, day, buckets =>
    creditDays offset a b driving count (day + 1) (addPiece driving day (pieceLength offset a b day) buckets)

/-- The minutes from `a` up to but not including `b` credited into the buckets; a length of 0 touches none (R14). -/
def creditBuckets (offset a b : Nat) (driving : Bool) (buckets : Vector Bucket 8) : Vector Bucket 8 :=
  if a < b then
    creditDays offset a b driving (dayOf offset (b - 1) + 1 - dayOf offset a) (dayOf offset a) buckets
  else buckets

/-- A figure of minutes that saturates at 65,535 (R1). -/
def saturateMinutes (n : Nat) : Nat := min 65535 n

/-- The interval of the current status, from status since up to minute `b`, credited into a record or a view by the
status it was spent in (R16, R24). -/
def creditAccount (offset b : Nat) (a : Account) : Account :=
  match a.status with
  | .rest => a
  | .duty => { a with buckets := creditBuckets offset (minuteOf a.since) b false a.buckets }
  | .drive =>
    { a with
      buckets := creditBuckets offset (minuteOf a.since) b true a.buckets
      shiftDrive := saturateMinutes (a.shiftDrive + (b - minuteOf a.since))
      driveSinceBreak := saturateMinutes (a.driveSinceBreak + (b - minuteOf a.since)) }

/-! ## The view -/

/-- The minute the computation is made at: never before the minute of status since (R23). -/
def figureMinute (a : Account) (t : Nat) : Nat := max t (minuteOf a.since)

/-- The lazy break applies in REST or DUTY when the non-drive run has reached Brk_min (R25). -/
def lazyBreak (l : Limits) (a : Account) (t : Nat) : Bool :=
  match a.status, a.nonDriveSince with
  | .drive, _ => false
  | _, none => false
  | _, some n => decide (l.brkMin ≤ t - n)

/-- The lazy rest applies in REST when the rest run has reached R_min (R26). -/
def lazyRest (l : Limits) (a : Account) (t : Nat) : Bool :=
  a.status == .rest && decide (l.rMin ≤ t - minuteOf a.since)

/-- The view at minute `t`: the open interval credited, then the two lazy steps (R22). -/
def viewAt (offset : Nat) (l : Limits) (t : Nat) (a : Account) : Account :=
  let credited := creditAccount offset t a
  let rested := if lazyBreak l a t then { credited with driveSinceBreak := 0 } else credited
  if lazyRest l a t then { rested with shiftStart := none, shiftDrive := 0, driveSinceBreak := 0 } else rested

/-! ## Figures -/

/-- The allowance figures of an account at a minute (R22, R39). -/
structure Figures where
  minute : Nat
  today : Nat
  a1 : Int
  a2 : Int
  a3 : Int
  a4 : Int
  cycleDuty : Nat
  shiftAllowance : Nat
  runAllowance : Nat
  cycleRoom : Nat
  viewShift : Option Nat
  lazyBreak : Bool
  lazyRest : Bool
deriving DecidableEq, Repr

/-- Does a bucket stand for one of the eight days ending today (R29)? -/
def Bucket.counted (today : Nat) (b : Bucket) : Bool :=
  decide (1 ≤ b.day) && decide (today ≤ b.day + 7) && decide (b.day ≤ today)

/-- Cycle duty: the duty minutes of the buckets counted (R29). -/
def cycleDutyOf (today : Nat) (buckets : Vector Bucket 8) : Nat :=
  ((buckets.toList.filter (Bucket.counted today)).map Bucket.duty).sum

/-- The window figure a2 (R27). -/
def windowFigure (l : Limits) (t : Nat) (shiftStart : Option Nat) : Int :=
  match shiftStart with
  | none => l.wMax
  | some m => (l.wMax : Int) - ((t : Int) - (m : Int))

/-- The figures of a record at minute `t`, against given limits and day offset (R22 to R31). -/
def figuresOf (offset : Nat) (l : Limits) (t0 : Nat) (a : Account) : Figures :=
  let t := figureMinute a t0
  let view := viewAt offset l t a
  let today := dayOf offset t
  let duty := cycleDutyOf today view.buckets
  let a1 : Int := (l.dMax : Int) - (view.shiftDrive : Int)
  let a2 : Int := windowFigure l t view.shiftStart
  let a3 : Int := (l.bMax : Int) - (view.driveSinceBreak : Int)
  let a4 : Int := (l.cMax : Int) - (duty : Int)
  let sAllowance : Int := max 0 (min a1 (min a2 a4))
  { minute := t
    today := today
    a1 := a1
    a2 := a2
    a3 := a3
    a4 := a4
    cycleDuty := duty
    shiftAllowance := sAllowance.toNat
    runAllowance := (max 0 (min sAllowance a3)).toNat
    cycleRoom := (max 0 a4).toNat
    viewShift := view.shiftStart
    lazyBreak := lazyBreak l a t
    lazyRest := lazyRest l a t }

/-- The figures of account `i` at minute `t`, from its record and the active copy of its profile (R22, R23). -/
def State.figures (s : State) (i : Fin 64) (t : Nat) : Figures :=
  figuresOf s.tc.dayOffset (s.limitsOf (s.account i)) t (s.account i)

/-! ## The hours test -/

/-- What the hours test finds (R40). -/
structure HoursTest where
  reasons : List Reason
  primary : Figures
  second : Option Figures
deriving DecidableEq, Repr

/-- The hours test of a folder at minute `t` (R40). -/
def hoursTest (s : State) (x : Folder) (t : Nat) : HoursTest :=
  let primary := s.figures x.primary t
  let second := x.second.map (fun i => s.figures i t)
  let drive := primary.shiftAllowance + (second.map Figures.shiftAllowance).getD 0
  let cycleShort := decide (primary.cycleRoom < x.plannedDuty)
    || (second.map (fun g => decide (g.cycleRoom < x.plannedDuty))).getD false
  { reasons := (if drive < x.plannedDrive then [.hoursDrive] else []) ++ (if cycleShort then [.hoursCycle] else [])
    primary := primary
    second := second }

end Sys2Proof.Machine
end

