-- ==== Sys2Proof/Machine/Alarms.lean ====
section
/-! DEFINITION. The Limit Alarm List (R54 to R58), the firing pass (R57), the expiry test (R19), the boundaries
(R48, R49), profile transfer (R37) and time jumps (R52). -/

namespace Sys2Proof.Machine

/-- Does entry `e` stand before entry `x`: by due minute, then by account (R54)? -/
def AlarmEntry.before (e x : AlarmEntry) : Bool :=
  decide (e.due < x.due) || (e.due == x.due && decide (e.account < x.account))

/-- An entry inserted at the place the ordering gives; entries held keep their order (R54). -/
def insertAlarm (e : AlarmEntry) : List AlarmEntry → List AlarmEntry
  | [] => [e]
  | x :: rest => if e.before x then e :: x :: rest else x :: insertAlarm e rest

/-- The list without an account's entry. -/
def removeAlarm (i : Fin 64) (entries : List AlarmEntry) : List AlarmEntry := entries.filter (fun e => e.account != i)

def State.insertAlarm (s : State) (e : AlarmEntry) : State := s.setAlarms (Machine.insertAlarm e s.hu.alarms)

def State.removeAlarm (s : State) (i : Fin 64) : State := s.setAlarms (Machine.removeAlarm i s.hu.alarms)

/-- What a recompute places for an account, its old entry gone (R55). -/
def placeAlarm (m : Nat) (i : Fin 64) (s : State) : State :=
  let a := s.account i
  let l := s.limitsOf a
  if a.state = .free then s
  else match a.status with
    | .rest => s
    | .duty =>
      match a.shiftStart with
      | none => s
      | some start =>
        if m < start + l.wMax then s.insertAlarm ⟨i, .window, start + l.wMax⟩ else raiseAlarm i .overWindow s
    | .drive =>
      let run := (s.figures i m).runAllowance
      if l.warnLead < run then s.insertAlarm ⟨i, .warn, m + run - l.warnLead⟩
      else if 0 < run then s.insertAlarm ⟨i, .limit, m + run⟩
      else raiseAlarm i .overRun s

/-- A recompute of an account at minute `m` (R55). -/
def recomputeAt (m : Nat) (i : Fin 64) (s : State) : State := placeAlarm m i (s.removeAlarm i)

/-- A recompute at the present terminal minute (R56). -/
def recompute (i : Fin 64) (s : State) : State := recomputeAt s.minute i s

/-- A recompute of every ACTIVE or SUSPENDED account at the present minute (R56). -/
def recomputeAll (s : State) : State :=
  overAccounts (fun i s => if (s.account i).state = .free then s else recompute i s) s

/-- The action of a fired entry, already removed from the list (R57). -/
def fireEntry (e : AlarmEntry) (s : State) : State :=
  match e.kind with
  | .warn =>
    let s' := raiseAlarm e.account .warn s
    s'.insertAlarm ⟨e.account, .limit, e.due + (s'.limitsOf (s'.account e.account)).warnLead⟩
  | .limit => raiseAlarm e.account .overRun s
  | .window => raiseAlarm e.account .overWindow s

/-- The firing pass at minute `m`, for at most `fuel` entries (R57). -/
def fireDue (m : Nat) : Nat → State → State
  | 0, s => s
  | fuel + 1, s =>
    match s.hu.alarms with
    | [] => s
    | e :: rest => if e.due ≤ m then fireDue m fuel (fireEntry e (s.setAlarms rest)) else s

/-- The firing pass at minute `m` (R57). Each entry held fires at most once, and a WARN once more as its LIMIT, so twice
the length of the list is enough. -/
def firingPass (m : Nat) (s : State) : State := fireDue m (2 * s.hu.alarms.length) s

/-- The expiry test of an account (R19). DESIGN CHOICE (log 32): today is that of the handling, also where a day has begun
since the office command was taken. -/
def expiryTest (i : Fin 64) (s : State) : State :=
  if (s.account i).state = .active ∧ (s.account i).expiry < s.today then raiseAlarm i .expired s else s

/-- The transfer of one profile at a day boundary (R37). -/
def transferProfile (p : ProfileLetter) (s : State) : State :=
  let x := s.profile p
  if x.pendingValid then s.setProfile p ⟨x.pendingCopy, x.pendingCopy, false⟩ else s

/-- The day-boundary work, for the day the clock now holds (R49). -/
def dayWork (s : State) : State :=
  let transferred := transferProfile .b (transferProfile .a s)
  let tested := overAccounts expiryTest transferred
  let recomputed := recomputeAll tested
  recomputed.setTreatedDay recomputed.today

/-- The day check: the work is made when the day number differs from the treated day (R49). -/
def dayCheck (s : State) : State := if s.today = s.tc.treatedDay then s else dayWork s

/-- A minute boundary into the clock's present minute: the firing pass, then the day check (R48, R49). -/
def takeMinuteBoundary (s : State) : State := dayCheck (firingPass s.minute (s.setMinuteDue false))

/-- The clock after counting one second: it stays at the largest value (R44). -/
def countedClock (clock : Nat) : Nat := if clock < maxClock then clock + 1 else clock

/-- Counting a second carries the clock into a new terminal minute. -/
def entersMinute (clock : Nat) : Bool := decide (minuteOf clock < minuteOf (countedClock clock))

def State.setClock (s : State) (clock : Nat) : State := { s with tc := { s.tc with clock := clock } }

/-- A time jump, taken after the clock has been written (R52). `before` is the terminal minute before the write; the
treated day is still the one before it. DESIGN CHOICE (log 2): a jump that leaves minute and offset as they were while a
counted day boundary is still owed makes the day's work at once, before the owed firing pass. -/
def timeJump (before : Nat) (s : State) : State :=
  let fired := if before < s.minute then firingPass s.minute (s.setMinuteDue false) else s
  if fired.today ≠ fired.tc.treatedDay then dayWork fired
  else if s.minute ≠ before then recomputeAll fired
  else fired

/-- The day check and list rebuild of a start (R60); the list is empty before it. -/
def startAlarms (s : State) : State := if s.today ≠ s.tc.treatedDay then dayWork s else recomputeAll s

end Sys2Proof.Machine
end

