-- ==== Sys2Proof/Machine/Accounts.lean ====
section
/-! DEFINITION. Status changes: the seven steps of R13 and the four shift rules of R17. -/

namespace Sys2Proof.Machine

/-- Shift rule 1, leaving REST (R17). -/
def leavingRest (l : Limits) (e : Nat) (a : Account) : Account :=
  if a.status = .rest ∧ l.rMin ≤ e - minuteOf a.since then
    { a.clearAlarm .overWindow with shiftStart := none, shiftDrive := 0, driveSinceBreak := 0 }
  else a

/-- Shift rule 2, entering DRIVE (R17). -/
def enteringDrive (l : Limits) (new : Status) (e : Nat) (a : Account) : Account :=
  match new, a.nonDriveSince with
  | .drive, some n => if l.brkMin ≤ e - n then { a with driveSinceBreak := 0 } else a
  | _, _ => a

/-- Shift rule 3, opening (R17). -/
def openingShift (new : Status) (e : Nat) (a : Account) : Account :=
  if new ≠ .rest ∧ a.shiftStart = none then { a with shiftStart := some e } else a

/-- Shift rule 4, leaving DRIVE (R17). -/
def leavingDrive (e : Nat) (a : Account) : Account :=
  if a.status = .drive then { (a.clearAlarm .warn).clearAlarm .overRun with nonDriveSince := some e } else a

/-- The shift rules in their order, at event minute `e`; the record still holds its old status (R17). -/
def shiftRules (l : Limits) (new : Status) (e : Nat) (a : Account) : Account :=
  leavingDrive e (openingShift new e (enteringDrive l new e (leavingRest l e a)))

/-- Step 6 of a status change (R13). -/
def writeStatus (new : Status) (time : Nat) (a : Account) : Account :=
  { a with
    status := new
    since := time
    nonDriveSince := if new = .drive then none else a.nonDriveSince }

/-- Steps 4 to 6 of a status change on the record: credit, shift rules, write (R13). -/
def changedRecord (offset : Nat) (l : Limits) (new : Status) (time : Nat) (a : Account) : Account :=
  writeStatus new time (shiftRules l new (minuteOf time) (creditAccount offset (minuteOf time) a))

/-- What a status change gives: the state, the refusal if it was refused, and the time applied after any clamping. -/
structure StatusOutcome where
  state : State
  refusal : Option Reason
  applied : Nat
deriving DecidableEq, Repr

/-- Step 2 of a status change: a late time raises LATE (R13). -/
def noteLate (i : Fin 64) (time : Nat) (s : State) : State :=
  if time < (s.account i).since then raiseAlarm i .late s else s

/-- Steps 4 to 7 of a status change, at the time after clamping (R13). -/
def applyStatus (i : Fin 64) (new : Status) (time : Nat) (s : State) : State :=
  let a := changedRecord s.tc.dayOffset (s.limitsOf (s.account i)) new time (s.account i)
  recompute i ((s.setAccount i a).raiseHighWater time)

/-- A status change (R13). DESIGN CHOICE (log 32): the clock of step 1 is the one at the handling, also where a second has
been counted since an office SET STATUS was taken. -/
def changeStatus (i : Fin 64) (new : Status) (time : Nat) (s : State) : StatusOutcome :=
  if (s.account i).state = .free then ⟨s, some .unknownDriver, time⟩
  else if s.tc.clock < time then ⟨s, some .future, time⟩
  else
    let applied := max time (s.account i).since
    let noted := noteLate i time s
    if (s.account i).status = new then ⟨noted, none, applied⟩ else ⟨applyStatus i new applied noted, none, applied⟩

end Sys2Proof.Machine
end

