-- ==== Sys2Proof/Machine/Operands.lean ====
section
/-! DEFINITION. Argument fields as the owning block decodes them before its checks (R199): indices of one byte, set
fields with the bits that name no member, lists carried in fixed slots. -/

namespace Sys2Proof.Machine

/-- An index of one byte, or nothing where it is out of range. -/
def indexOf (n : Nat) (b : Byte) : Option (Fin n) := if h : b.toNat < n then some ⟨b.toNat, h⟩ else none

/-- A driver named by CREATE FOLDER: an account index, absent (0xFF, second driver only), or out of range. -/
inductive SecondDriver where
  | absent
  | account (i : Fin 64)
  | outOfRange
deriving DecidableEq, Repr

/-- The second account of CREATE FOLDER (12, "Two commands carry their lists in fixed slots"). -/
def secondDriverOf (b : Byte) : SecondDriver :=
  if b = 0xFF then .absent
  else match indexOf 64 b with
    | some i => .account i
    | none => .outOfRange

/-- An endorsement set names classes 1 to 7: class 0 is no class (R5, R199). -/
def endorsementsOk (set : Byte) : Bool := !hasMember set 0

/-- A placard set names groups 1 to 15: group 0 is not placarded (R127, R199). -/
def placardsOk (set : BitVec 16) : Bool := !hasMember set 0

/-- An attention flag set names the eight flags only (R183, R199). -/
def attentionOk (set : BitVec 16) : Bool := set.toNat < 256

/-- An operation group set names the ten groups only (R151, R199). -/
def groupsOk (set : BitVec 16) : Bool := set.toNat < 1024

/-- An enrolled set names nodes 0 to 8 only (R160, R199). -/
def enrolledOk (set : BitVec 16) : Bool := set.toNat < 512

/-- Does a compartment set name a compartment at or beyond a length (R67)? -/
def namesBeyond (set : Byte) (length : Nat) : Bool := (List.range 8).any (fun k => hasMember set k && decide (length ≤ k))

/-- A substance code as it travels: 0 is EMPTY (R199). -/
def substanceOf (code : BitVec 16) : Option Nat := if code = 0 then none else some code.toNat

/-- The first `count` of six slots; slots beyond the count are not read (12). -/
def slotsUsed {α : Type} (count : Byte) (slots : Vector α 6) : List α := slots.toList.take count.toNat

/-- Is a number within a range, both ends included? -/
def within (lo hi n : Nat) : Bool := decide (lo ≤ n) && decide (n ≤ hi)

end Sys2Proof.Machine
end

