-- ==== Sys2Proof/Machine/Port.lean ====
section
/-! DEFINITION. The office port and the Rights Check of its commands: roles and classes (R145, R148 to R150), denials
(R156, R157), the moments and the handling of a transaction (R175 to R178) and the reply buffer (R179, R180). -/

namespace Sys2Proof.Machine

/-! ## Rights of the office -/

/-- The role of an office command, by the SKEY level sampled (R145). -/
def roleOf (o : OfficeFrame) : Role := if o.skey then .supervisor else .office

/-- Is a group's cell ALLOW (R147)? -/
def State.allows (s : State) (g : OperationGroup) : Bool := hasMember s.rc.allowed g.bit

/-- Does a command of a class pass under the role of its frame (R149)? -/
def officePasses (s : State) (o : OfficeFrame) : CommandClass → Bool
  | .grouped g => o.skey || s.allows g
  | .supervisorOnly => o.skey
  | _ => true

/-- The operation group of a class, if it has one. -/
def CommandClass.group : CommandClass → Option OperationGroup
  | .grouped g => some g
  | _ => none

/-- Today as it stood when the office command being handled was taken: the day of its arrival second (R44, R145). -/
def State.todayTaken (s : State) : Nat := s.dayOfMinute (minuteOf s.officeArrival)

/-- The class of a SET TIME from its arguments and today as it stood when the command was taken, at the rise of OSEL
(R150, R158). -/
def setTimeClass (s : State) (value offset : Nat) : CommandClass :=
  if 1439 < offset then .grouped .time
  else if dayOf offset (minuteOf value) < s.todayTaken then .supervisorOnly
  else .grouped .time

/-! ## Denials -/

/-- The denial record with a denial added: a full ring first drops its oldest entry (R157). -/
def addDenial (d : Denial) (ring : List Denial) : List Denial :=
  (if ring.length < 8 then ring else ring.drop (ring.length - 7)) ++ [d]

/-- Steps 2 and 3 of a denial (R156). -/
def recordDenial (d : Denial) (s : State) : State :=
  setAttention .access { s with rc := { s.rc with denials := addDenial d s.rc.denials } }

/-! ## Answers -/

/-- What an owner answers an office command: the records after it, the result (absent is OK) and the reply data. -/
structure Answer where
  state : State
  result : Option Reason
  data : List Byte
deriving DecidableEq, Repr

/-- Result OK with data. -/
def answerOk (s : State) (data : List Byte) : Answer := ⟨s, none, data⟩

/-- A refusal: the records as they were, the reason, no data. -/
def answerRefused (s : State) (r : Reason) : Answer := ⟨s, some r, []⟩

/-- A command's reply replaces the whole reply buffer (R179). -/
def placeReply (o : OfficeFrame) (code : Byte) (a : Answer) : State :=
  { a.state with op := { a.state.op with reply := some ⟨o.tag, code, a.result, a.data⟩ } }

/-! ## Transactions -/

/-- The bytes shifted out on OSDO in a transaction (log 4). -/
def shiftOut (bytes : List Byte) (s : State) : State := { s with out := { s.out with office := bytes } }

/-- The all-ones bytes of a transaction that is not taken (R176). -/
def allOnes (n : Nat) : List Byte := List.replicate n 0xFF

/-- The bytes shifted out in a transaction of `n` whole bytes begun with the port idle: the summary byte, then zero
bytes (R178). -/
def summaryAndZeros (s : State) (n : Nat) : List Byte := (s.summaryShown :: zeroBytes n).take n

/-- The port is busy while a taken command is not yet handled (R176); while RESET is low every transaction is treated as
one begun while the port is busy (R197). -/
def State.portBusy (s : State) : Bool := s.pins.resetLow || s.underway.risen.isSome

/-- OSEL falls: with the port idle the summary byte is formed (R178); with the port busy the transaction will not be taken
(R176). -/
def oselFalls (s : State) : State :=
  if s.portBusy then { s with underway := { s.underway with refused := true } }
  else { s with underway := { s.underway with summary := some (summaryByte s), refused := false } }

/-- A transaction of `n` whole bytes begun while the port was busy ends: it has shifted out all-ones bytes and is treated
as a dropped frame (R176). -/
def refusedEnds (n : Nat) (s : State) : State :=
  { shiftOut (allOnes n) s with underway := { s.underway with refused := false } }

/-- The transaction that ends now was begun while the port was busy. -/
def State.refuses (s : State) : Bool := s.underway.refused || s.portBusy

/-- OSEL rises after a complete frame: the command is taken, its arrival stamped (R44) with the high-water time (R53), and
the port is busy, unless the transaction was begun while it was busy already (R176). -/
def oselRises (n : Nat) (s : State) : State :=
  if s.refuses then refusedEnds n s
  else { s with underway := { s.underway with summary := some s.summaryShown, risen := some ⟨s.tc.clock, s.tc.highWater⟩ } }

/-- The transaction of the command handled is over: what it shifted out, and nothing of it under way. -/
def endTransaction (bytes : List Byte) (s : State) : State :=
  { shiftOut bytes s with underway := { s.underway with summary := none, risen := none } }

/-- Does a command taken at an earlier rise of OSEL wait for its handling? -/
def State.commandWaits (s : State) : Bool := !s.pins.resetLow && s.underway.risen.isSome

/-- A moment of a transaction of `n` whole bytes. Without power nothing happens (log 7). What is handled is the command
taken at the rise of OSEL, or, `atOnce`, the command of a transaction that meets the port idle (log 3). -/
def transaction (m : OfficeMoment) (n : Nat) (handle : State → State) (s : State) : State :=
  if s.pins.powered then
    match m with
    | .oselFalls => oselFalls s
    | .oselRises => oselRises n s
    | .handled => if s.commandWaits then handle s else s
    | .atOnce => if s.refuses then refusedEnds n s else handle s
  else s

/-- How many whole bytes a transaction with a complete frame clocks: code, tag, length, arguments, and what follows
(R175). -/
def transactionBytes (length extra : Nat) : Nat := 3 + length + extra

/-- Steps 3 and 4 of the handling of a command that arrived at second `arrival` (R177): the Rights Check, then the
owner. -/
def judged (c : OfficeCommand) (cls : CommandClass) (o : OfficeFrame) (owner : Nat → State → Answer) (arrival : Nat)
    (s : State) : State :=
  if officePasses s o cls then placeReply o (officeCode c) (owner arrival s)
  else
    recordDenial ⟨roleOf o, none, .office c, cls.group, .deniedRole, none, arrival⟩
      (placeReply o (officeCode c) (answerRefused s .deniedRole))

/-- An office command whose class is decided from the state (R177). Its transaction shifts out the summary byte and
zero bytes. -/
def officeCommandOf (c : OfficeCommand) (cls : State → CommandClass) (o : OfficeFrame)
    (owner : Nat → State → Answer) (s : State) : State :=
  let n := transactionBytes (officeLength c) o.extra
  transaction o.moment n
    (fun s => judged c (cls s) o owner s.officeArrival (endTransaction (summaryAndZeros s n) s)) s

/-- An office command of the class its code has (R148, R177). -/
def officeCommand (c : OfficeCommand) (o : OfficeFrame) (owner : Nat → State → Answer) (s : State) : State :=
  officeCommandOf c (fun _ => officeClass c) o owner s

/-- The reply buffer as READ REPLY shifts it out: state byte, tag, code, result, data length, data (R180). -/
def replyBytes (r : Option OfficeReply) : List Byte :=
  match r with
  | none => zeroBytes 5
  | some r => [0x01, r.tag, r.code] ++ byte1 (resultCodeOf r.result) ++ byte1 r.data.length ++ r.data

/-- The first `n` bytes clocked from a record; beyond its end zero bytes are read (R180). -/
def clocked (n : Nat) (record : List Byte) : List Byte := (record ++ zeroBytes n).take n

end Sys2Proof.Machine
end

