-- ==== Sys2Proof/Machine/AccountCommands.lean ====
section
/-! DEFINITION. The office commands on accounts (01_driver_accounts.md; NEXT FLAGGED ACCOUNT, R185). -/

namespace Sys2Proof.Machine

/-- The lowest FREE account record (R5). -/
def State.freeAccount (s : State) : Option (Fin 64) := lowest 64 (fun i => (s.account i).state == .free)

/-- Is a card held by a non-FREE account other than `i` (R4, R6)? -/
def State.cardElsewhere (s : State) (i : Fin 64) (card : Nat) : Bool :=
  (lowest 64 (fun j => j != i && (s.account j).state != .free && (s.account j).card == some card)).isSome

/-- The record OPEN ACCOUNT writes (R5). -/
def openedRecord (card : Nat) (p : ProfileLetter) (endorsements : Byte) (expiry arrival : Nat) : Account :=
  { Account.free with
    state := .active
    card := some card
    profile := p
    endorsements := endorsements
    expiry := expiry
    since := arrival
    nonDriveSince := some (minuteOf arrival) }

/-- OPEN ACCOUNT at its owner (R5). -/
def openAccountAnswer (card : BitVec 32) (profile endorsements : Byte) (expiry : BitVec 16) (arrival : Nat)
    (s : State) : Answer :=
  match ProfileLetter.ofCode profile with
  | none => answerRefused s .range
  | some p =>
    if card = 0 ∨ endorsementsOk endorsements = false then answerRefused s .range
    else if (s.findCard card.toNat).isSome then answerRefused s .cardInUse
    else match s.freeAccount with
      | none => answerRefused s .full
      | some i =>
        let opened := s.setAccount i (openedRecord card.toNat p endorsements expiry.toNat arrival)
        answerOk (recompute i ((expiryTest i opened).raiseHighWater arrival)) (byte1 i.val)

/-- OPEN ACCOUNT (R5). -/
def execOpenAccount (o : OfficeFrame) (card : BitVec 32) (profile endorsements : Byte) (expiry : BitVec 16)
    (s : State) : Host.Outcome State Fault Refusal :=
  .next (officeCommand .openAccount o (openAccountAnswer card profile endorsements expiry) s)

/-- EXPIRED is cleared when the expiry is today or later (R6). DESIGN CHOICE (log 32): today is that of the handling, as in
the expiry test. -/
def clearExpired (i : Fin 64) (s : State) : State :=
  if s.today ≤ (s.account i).expiry then s.setAccount i ((s.account i).clearAlarm .expired) else s

/-- The four fields written, then the recompute, the expiry test and the clearing of R6. -/
def editRecord (i : Fin 64) (card : Nat) (p : ProfileLetter) (endorsements : Byte) (expiry : Nat) (s : State) : State :=
  let a := s.account i
  let written := s.setAccount i { a with card := some card, profile := p, endorsements := endorsements, expiry := expiry }
  let placed := if a.profile ≠ p then recompute i written else written
  clearExpired i (expiryTest i placed)

/-- EDIT ACCOUNT at its owner (R6). -/
def editAccountAnswer (index : Byte) (card : BitVec 32) (profile endorsements : Byte) (expiry : BitVec 16) (_arrival : Nat)
    (s : State) : Answer :=
  match indexOf 64 index, ProfileLetter.ofCode profile with
  | some i, some p =>
    if card = 0 ∨ endorsementsOk endorsements = false then answerRefused s .range
    else if (s.account i).state = .free then answerRefused s .unknownDriver
    else if s.cardElsewhere i card.toNat then answerRefused s .cardInUse
    else if (s.account i).card ≠ some card.toNat ∧ (s.account i).liveFolder.isSome then answerRefused s .inUse
    else answerOk (editRecord i card.toNat p endorsements expiry.toNat s) []
  | _, _ => answerRefused s .range

/-- EDIT ACCOUNT (R6). -/
def execEditAccount (o : OfficeFrame) (index : Byte) (card : BitVec 32) (profile endorsements : Byte)
    (expiry : BitVec 16) (s : State) : Host.Outcome State Fault Refusal :=
  .next (officeCommand .editAccount o (editAccountAnswer index card profile endorsements expiry) s)

/-- A command on one account: RANGE for an index above 63, UNKNOWN_DRIVER if it is FREE, else its act (R7 to R11, R20). -/
def onAccount (index : Byte) (act : Fin 64 → State → Answer) (s : State) : Answer :=
  match indexOf 64 index with
  | none => answerRefused s .range
  | some i => if (s.account i).state = .free then answerRefused s .unknownDriver else act i s

/-- SUSPEND ACCOUNT on a non-FREE account (R7). -/
def suspendAnswer (i : Fin 64) (s : State) : Answer :=
  if (s.account i).state = .suspended then answerRefused s .badState
  else answerOk (s.setAccount i { s.account i with state := .suspended }) []

/-- SUSPEND ACCOUNT (R7). -/
def execSuspendAccount (o : OfficeFrame) (index : Byte) (s : State) : Host.Outcome State Fault Refusal :=
  .next (officeCommand .suspendAccount o (fun _ => onAccount index suspendAnswer) s)

/-- RESUME ACCOUNT on a non-FREE account (R8). -/
def resumeAnswer (i : Fin 64) (s : State) : Answer :=
  if (s.account i).state = .active then answerRefused s .badState
  else answerOk (expiryTest i (s.setAccount i { s.account i with state := .active })) []

/-- RESUME ACCOUNT (R8). -/
def execResumeAccount (o : OfficeFrame) (index : Byte) (s : State) : Host.Outcome State Fault Refusal :=
  .next (officeCommand .resumeAccount o (fun _ => onAccount index resumeAnswer) s)

/-- CLOSE ACCOUNT on a non-FREE account (R9). -/
def closeAnswer (i : Fin 64) (s : State) : Answer :=
  if (s.account i).liveFolder.isSome then answerRefused s .inUse
  else answerOk ((s.removeAlarm i).setAccount i Account.free) []

/-- CLOSE ACCOUNT (R9). -/
def execCloseAccount (o : OfficeFrame) (index : Byte) (s : State) : Host.Outcome State Fault Refusal :=
  .next (officeCommand .closeAccount o (fun _ => onAccount index closeAnswer) s)

/-- SET STATUS at its owner (R11): the status change's outcome is the result. -/
def setStatusAnswer (index status : Byte) (time : BitVec 32) (_arrival : Nat) (s : State) : Answer :=
  match indexOf 64 index, Status.ofCode status with
  | some i, some new =>
    let r := changeStatus i new time.toNat s
    match r.refusal with
    | some reason => answerRefused r.state reason
    | none => answerOk r.state (bytes4 r.applied ++ byte1 new.code)
  | _, _ => answerRefused s .range

/-- SET STATUS (R11). -/
def execSetStatus (o : OfficeFrame) (index status : Byte) (time : BitVec 32) (s : State) :
    Host.Outcome State Fault Refusal :=
  .next (officeCommand .setStatus o (setStatusAnswer index status time) s)

/-- CLEAR LATE on a non-FREE account (R20). -/
def clearLateAnswer (i : Fin 64) (s : State) : Answer := answerOk (s.setAccount i ((s.account i).clearAlarm .late)) []

/-- CLEAR LATE (R20). -/
def execClearLate (o : OfficeFrame) (index : Byte) (s : State) : Host.Outcome State Fault Refusal :=
  .next (officeCommand .clearLate o (fun _ => onAccount index clearLateAnswer) s)

/-- A bucket as READ ACCOUNT gives it (R10). -/
def Bucket.bytes (b : Bucket) : List Byte := bytes2 b.day ++ bytes2 b.duty ++ bytes2 b.drive

/-- A record as READ ACCOUNT gives it: the fields R10 lists, in their order. DESIGN CHOICE (log 33): unread, which R199 names
as a field and R10 does not list, is not among them. -/
def Account.bytes (a : Account) : List Byte :=
  byte1 a.state.code ++ bytesCard a.card ++ byte1 a.profile.code ++ [a.endorsements] ++ bytes2 a.expiry
    ++ byte1 a.status.code ++ bytes4 a.since ++ bytes4OrAbsent a.nonDriveSince ++ bytes4OrAbsent a.shiftStart
    ++ bytes2 a.shiftDrive ++ bytes2 a.driveSinceBreak ++ a.buckets.toList.flatMap Bucket.bytes
    ++ byte1 a.alarms.toNat ++ byteIndex a.liveFolder

/-- READ ACCOUNT on a non-FREE account: the record as it stands, then unread is cleared (R10). -/
def readAccountAnswer (i : Fin 64) (s : State) : Answer :=
  answerOk (s.setAccount i { s.account i with unread := false }) (s.account i).bytes

/-- READ ACCOUNT (R10). -/
def execReadAccount (o : OfficeFrame) (index : Byte) (s : State) : Host.Outcome State Fault Refusal :=
  .next (officeCommand .readAccount o (fun _ => onAccount index readAccountAnswer) s)

/-- FIND CARD at its owner (R4). -/
def findCardAnswer (card : BitVec 32) (_arrival : Nat) (s : State) : Answer :=
  if card = 0 then answerRefused s .range
  else match s.findCard card.toNat with
    | none => answerRefused s .unknownDriver
    | some i => answerOk s (byte1 i.val ++ byte1 (s.account i).state.code)

/-- FIND CARD (R4). -/
def execFindCard (o : OfficeFrame) (card : BitVec 32) (s : State) : Host.Outcome State Fault Refusal :=
  .next (officeCommand .findCard o (findCardAnswer card) s)

/-- The lowest account whose unread mark is set (R185). -/
def State.flaggedAccount (s : State) : Option (Fin 64) := lowest 64 (fun i => (s.account i).unread)

/-- NEXT FLAGGED ACCOUNT (R185). -/
def execNextFlaggedAccount (o : OfficeFrame) (s : State) : Host.Outcome State Fault Refusal :=
  .next (officeCommand .nextFlaggedAccount o (fun _ s => answerOk s (byteIndex s.flaggedAccount)) s)

end Sys2Proof.Machine
end

