-- ==== Sys2Proof/Machine/ClockCommands.lean ====
section
/-! DEFINITION. The office commands on the clock and the Limit Alarm List, and the clock's own events
(03_terminal_clock_and_limit_alarms.md). -/

namespace Sys2Proof.Machine

/-- The clock and day offset placed, the clock-set indicator yes (R50). -/
def placeClock (value offset : Nat) (s : State) : State :=
  { s with tc := { s.tc with clock := value, dayOffset := offset, clockSet := true } }

/-- SET TIME at its owner (R50). -/
def setTimeAnswer (value offset : Nat) (_arrival : Nat) (s : State) : Answer :=
  if s.mc.mode ≠ .config then answerRefused s .mode
  else if maxClock < value ∨ 1439 < offset ∨ dayOf offset (minuteOf value) = 0 then answerRefused s .range
  else if value < s.tc.clock then answerRefused s .timeBack
  else
    let jumped := timeJump s.minute (placeClock value offset s)
    answerOk jumped (bytes4 jumped.tc.clock ++ bytes2 jumped.today)

/-- SET TIME (R50), its class decided from its arguments (R150). -/
def execSetTime (o : OfficeFrame) (value : BitVec 32) (offset : BitVec 16) (s : State) :
    Host.Outcome State Fault Refusal :=
  .next (officeCommandOf .setTime (fun s => setTimeClass s value.toNat offset.toNat) o
    (setTimeAnswer value.toNat offset.toNat) s)

/-- ADJUST TIME at its owner (R51). -/
def adjustTimeAnswer (seconds : Nat) (_arrival : Nat) (s : State) : Answer :=
  if seconds = 0 ∨ 3600 < seconds ∨ maxClock < s.tc.clock + seconds then answerRefused s .range
  else
    let jumped := timeJump s.minute (s.setClock (s.tc.clock + seconds))
    answerOk jumped (bytes4 jumped.tc.clock)

/-- ADJUST TIME (R51). -/
def execAdjustTime (o : OfficeFrame) (seconds : BitVec 16) (s : State) : Host.Outcome State Fault Refusal :=
  .next (officeCommand .adjustTime o (adjustTimeAnswer seconds.toNat) s)

/-- The values READ TIME gives of a clock and a high-water time (R53). -/
def timeBytes (clock highWater : Nat) (s : State) : List Byte :=
  bytes4 clock ++ bytes4 (minuteOf clock) ++ bytes2 (s.dayOfMinute (minuteOf clock)) ++ bytes2 s.tc.dayOffset
    ++ bytes4 highWater ++ byteOfBool s.tc.clockSet

/-- READ TIME, with the clock and the high-water time as they stood when it was taken, at the rise of OSEL (R44, R53);
nothing writes the day offset or the clock-set indicator between the rise and the handling. -/
def execReadTime (o : OfficeFrame) (s : State) : Host.Outcome State Fault Refusal :=
  .next (officeCommand .readTime o (fun arrival u => answerOk u (timeBytes arrival s.highWaterTaken u)) s)

def AlarmEntry.bytes (e : AlarmEntry) : List Byte := byte1 e.account.val ++ byte1 e.kind.code ++ bytes4 e.due

/-- READ ALARMS at its owner (R61). -/
def readAlarmsAnswer (position : Byte) (_arrival : Nat) (s : State) : Answer :=
  if 63 < position.toNat then answerRefused s .range
  else answerOk s (byte1 s.hu.alarms.length ++ ((s.hu.alarms.drop position.toNat).take 16).flatMap AlarmEntry.bytes)

/-- READ ALARMS (R61). -/
def execReadAlarms (o : OfficeFrame) (position : Byte) (s : State) : Host.Outcome State Fault Refusal :=
  .next (officeCommand .readAlarms o (readAlarmsAnswer position) s)

/-! ## Events of the clock (log 2) -/

/-- A boundary still owed is taken before anything later than its second (R48). -/
def settleBoundary (s : State) : State := if s.tc.minuteDue then takeMinuteBoundary s else s

/-- One second counted; a new terminal minute owes its boundary (R44, R48). -/
def countSecond (s : State) : State :=
  (s.setClock (countedClock s.tc.clock)).setMinuteDue (s.tc.minuteDue || entersMinute s.tc.clock)

/-- CLOCK SECOND COUNT (R44). While the part is not working the clock counts and no boundary arises (R44, R197). -/
def execClockSecondCount (s : State) : Host.Outcome State Fault Refusal :=
  .next (if s.running then countSecond (settleBoundary s) else s.setClock (countedClock s.tc.clock))

/-- The clock at the entry into a new terminal minute, if the clock is about to enter one. -/
def enterMinute (s : State) : State :=
  if entersMinute s.tc.clock then s.setClock (countedClock s.tc.clock) else s

/-- A minute boundary: the one owed, or the one the next second brings; none in the middle of a minute (R48). -/
def minuteBoundary (s : State) : State :=
  if s.tc.minuteDue then takeMinuteBoundary s
  else if entersMinute s.tc.clock then takeMinuteBoundary (enterMinute s)
  else s

/-- MINUTE BOUNDARY (R48, R49). While the part is not working the clock enters the minute and no boundary is taken
(R197). -/
def execMinuteBoundary (s : State) : Host.Outcome State Fault Refusal :=
  .next (if s.running then minuteBoundary s else enterMinute s)

/-- DAY BOUNDARY (R49): the day check, after the firing pass of a minute boundary still owed. -/
def execDayBoundary (s : State) : Host.Outcome State Fault Refusal :=
  .next (if s.running then dayCheck (settleBoundary s) else s)

end Sys2Proof.Machine
end

