-- ==== Sys2Proof/Machine/Goods.lean ====
section
/-! DEFINITION. The Goods Check Unit: lookups and fill limits (R87, R88), codes in use (R89), the matrix (R93), placard
sets (R98), the plan check (R99 to R104) and the endorsement test (R103). -/

namespace Sys2Proof.Machine

/-! ## The substance table -/

/-- The entry of a code (R87). -/
def findSubstance (code : Nat) (table : List Substance) : Option Substance := table.find? (fun e => e.code == code)

def State.substance (s : State) (code : Nat) : Option Substance := findSubstance code s.gcu.substances

/-- The entry of a compartment's code, if it holds a code and the code is known. -/
def State.product (s : State) (c : Compartment) : Option Substance := c.substance.bind s.substance

/-- An entry written in code order: a known code's entry is replaced, an unknown code's entry is inserted (R87, R90). -/
def putSubstance (e : Substance) : List Substance → List Substance
  | [] => [e]
  | x :: rest =>
    if e.code < x.code then e :: x :: rest
    else if e.code = x.code then e :: rest
    else x :: putSubstance e rest

/-- The table without a code's entry (R91). -/
def dropSubstance (code : Nat) (table : List Substance) : List Substance := table.filter (fun e => e.code != code)

def State.setSubstances (s : State) (table : List Substance) : State := { s with gcu := { s.gcu with substances := table } }

/-- The fill limit of a compartment whose substance is known (R88). -/
def State.fillLimit (s : State) (c : Compartment) : Option Nat := (s.product c).map (fun e => c.capacity * e.fill / 1000)

/-- Does a folder name a code (R89)? -/
def Folder.names (x : Folder) (code : Nat) : Bool :=
  x.compartments.any (fun c => c.substance == some code) || x.papers.any (fun p => p.code == code)

/-- The lowest non-FREE folder that names a code (R89, R92). -/
def State.namedBy (s : State) (code : Nat) : Option (Fin 16) :=
  lowest 16 (fun f => (s.folder f).state != .free && (s.folder f).names code)

/-! ## The matrix and the thresholds -/

/-- Place of cell (g, h). -/
def cellIndex (g h : Fin 16) : Fin 256 := Fin.ofNat 256 (16 * g.val + h.val)

/-- Cell (g, h) of the matrix (R93). -/
def State.cell (s : State) (g h : Fin 16) : Ruling := s.gcu.cells[cellIndex g h]

/-- A ruling written into cell (g, h) and cell (h, g) together (R94). -/
def State.setCells (s : State) (g h : Fin 16) (r : Ruling) : State :=
  { s with gcu := { s.gcu with cells := (s.gcu.cells.set (cellIndex g h) r).set (cellIndex h g) r } }

/-- The threshold of the group at place `k`, which is group k + 1 (R97). -/
def State.threshold (s : State) (k : Fin 15) : Nat := s.gcu.thresholds[k]

def State.setThreshold (s : State) (k : Fin 15) (n : Nat) : State :=
  { s with gcu := { s.gcu with thresholds := s.gcu.thresholds.set k n } }

/-- Is the compartment one whose substance belongs to a group? -/
def State.ofGroup (s : State) (g : Nat) (c : Compartment) : Bool :=
  match s.product c with
  | some e => e.group.val == g
  | none => false

/-- The total of a group over a folder's compartments (R98). -/
def State.groupTotal (s : State) (g : Nat) (quantity : Compartment → Nat) (cs : List Compartment) : Nat :=
  ((cs.filter (s.ofGroup g)).map quantity).sum

/-- The placard set from a quantity of each compartment (R98). -/
def State.placardSet (s : State) (quantity : Compartment → Nat) (cs : List Compartment) : MemberSet 16 :=
  (List.finRange 15).foldl
    (fun set k =>
      let total := s.groupTotal (k.val + 1) quantity cs
      if 0 < total ∧ s.threshold k ≤ total then withMember set (k.val + 1) else set)
    0

/-! ## The endorsement test -/

/-- What the endorsement test of one driver finds (R103). -/
structure EndorsementTest where
  endorsement : Bool
  expired : Bool
deriving DecidableEq, Repr

/-- The endorsement class of a code: 0 for a code without one (R103). -/
def State.classOf (s : State) (code : Nat) : Nat := ((s.substance code).map (fun e => e.cls.val)).getD 0

/-- The endorsement test of a driver over codes at a day number (R103). -/
def endorsementTest (s : State) (a : Account) (codes : List Nat) (day : Nat) : EndorsementTest where
  endorsement := codes.any (fun code => s.classOf code != 0 && !hasMember a.endorsements (s.classOf code))
  expired := codes.any (fun code => s.classOf code != 0) && decide (a.expiry < day)

/-- The codes of a folder's non-EMPTY compartments that satisfy a test. -/
def codesWhere (p : Compartment → Bool) (cs : List Compartment) : List Nat := (cs.filter p).filterMap Compartment.substance

/-! ## The plan check -/

/-- Where a plan check failed: the reason and what the reply carries (R69, R99; log 15). -/
structure PlanFailure where
  reason : Reason
  data : List Byte
deriving DecidableEq, Repr

/-- Index mark of a SUBMIT refusal (R199). -/
def markLine : Nat := 0
def markCompartment : Nat := 1
def markAccount : Nat := 2

/-- The first index whose element fails a test. -/
def firstFailing {α : Type} (p : Nat → α → Bool) (xs : List α) : Option Nat := xs.zipIdx.findIdx? (fun x => !p x.2 x.1)

/-- Step 1: every non-EMPTY compartment's code is known (R100). -/
def checkKnown (s : State) (cs : List Compartment) : Option PlanFailure :=
  (firstFailing (fun _ c => c.substance.isNone || (s.product c).isSome) cs).map
    (fun k => ⟨.unknownSubstance, byte1 markCompartment ++ byte1 k⟩)

/-- Does a compartment's declared quantity pass step 2 (R100)? -/
def declaredOk (s : State) (c : Compartment) : Bool :=
  match c.substance with
  | none => c.declared == 0
  | some _ => within 1 ((s.fillLimit c).getD 0) c.declared

/-- Step 2: declared quantities against fill limits (R100). -/
def checkFill (s : State) (cs : List Compartment) : Option PlanFailure :=
  (firstFailing (fun _ c => declaredOk s c) cs).map (fun k => ⟨.fillLimit, byte1 markCompartment ++ byte1 k⟩)

/-- Does a line's code hold in every compartment its set names (R101, part d)? -/
def lineFits (cs : List Compartment) (line : PapersLine) : Bool :=
  (List.range 8).all (fun k =>
    !hasMember line.compartments k || (match cs[k]? with | some c => c.substance == some line.code | none => false))

/-- The later line of the first pair of lines that fails a test, later lines in list order (R101). -/
def laterLine (clash : PapersLine → PapersLine → Bool) (lines : List PapersLine) : Option Nat :=
  firstFailing (fun k line => (lines.take k).all (fun early => !clash early line)) lines

/-- Step 3, parts a to e: the index reported, and whether it is a line (R101). -/
def papersFailure (s : State) (cs : List Compartment) (lines : List PapersLine) : Option (Nat × Nat) :=
  match firstFailing (fun _ line => (s.substance line.code).isSome) lines with
  | some k => some (markLine, k)
  | none =>
    match laterLine (fun x y => x.code == y.code) lines with
    | some k => some (markLine, k)
    | none =>
      match laterLine (fun x y => x.compartments &&& y.compartments != 0) lines with
      | some k => some (markLine, k)
      | none =>
        match firstFailing (fun _ line => lineFits cs line) lines with
        | some k => some (markLine, k)
        | none =>
          (firstFailing (fun k c => c.substance.isNone || lines.any (fun line => hasMember line.compartments k)) cs).map
            (fun k => (markCompartment, k))

/-- Step 3: the papers (R101). -/
def checkPapers (s : State) (x : Folder) : Option PlanFailure :=
  (papersFailure s x.compartments x.papers).map (fun r => ⟨.papers, byte1 r.1 ++ byte1 r.2⟩)

/-- Is some compartment strictly between two places EMPTY (R102)? -/
def emptyBetween (cs : List Compartment) (i j : Nat) : Bool :=
  (List.range j).any (fun k => decide (i < k) && (match cs[k]? with | some c => c.substance.isNone | none => false))

/-- Does the pair of compartments at i and j, i below j, pass (R102)? -/
def pairPasses (s : State) (cs : List Compartment) (i j : Nat) : Bool :=
  match (cs[i]?).bind s.product, (cs[j]?).bind s.product with
  | some g, some h =>
    match s.cell g.group h.group with
    | .ok => true
    | .apart => emptyBetween cs i j
    | .never => false
  | _, _ => true

/-- Step 4: pairs of non-EMPTY compartments, j ascending and for each j, i ascending (R102). -/
def checkPairs (s : State) (cs : List Compartment) : Option PlanFailure :=
  ((List.range cs.length).flatMap (fun j => (List.range j).map (fun i => (j, i)))).find?
      (fun p => !pairPasses s cs p.2 p.1)
    |>.map (fun p => ⟨.incompatible, byte1 markCompartment ++ byte1 p.1 ++ byte1 p.2⟩)

/-- Step 5 for one driver: ENDORSEMENT before EXPIRED (R104). -/
def checkDriver (s : State) (cs : List Compartment) (day : Nat) (i : Fin 64) : Option PlanFailure :=
  let found := endorsementTest s (s.account i) (codesWhere (fun _ => true) cs) day
  if found.endorsement then some ⟨.endorsement, byte1 markAccount ++ byte1 i.val⟩
  else if found.expired then some ⟨.expired, byte1 markAccount ++ byte1 i.val⟩
  else none

/-- The plan check of a folder at a day number: the first failure of its five steps (R99). -/
def planCheck (s : State) (x : Folder) (day : Nat) : Option PlanFailure :=
  (checkKnown s x.compartments)
    <|> (checkFill s x.compartments)
    <|> (checkPapers s x)
    <|> (checkPairs s x.compartments)
    <|> (checkDriver s x.compartments day x.primary)
    <|> (x.second.bind (checkDriver s x.compartments day))

/-! ## Return to OPEN -/

/-- Is a folder affected by an edit of cell (g, h), g and h different (R95)? -/
def State.affected (s : State) (g h : Fin 16) (x : Folder) : Bool :=
  (x.state == .papered || x.state == .assigned)
    && x.compartments.any (s.ofGroup g.val) && x.compartments.any (s.ofGroup h.val)

/-- A folder returned to OPEN (R81). -/
def reopened (x : Folder) : Folder := { x with state := .opened, bay := none, placards := 0, unread := true }

/-- The affected folders are returned to OPEN in ascending number (R95). -/
def returnAffected (g h : Fin 16) (s : State) : State :=
  overFolders (fun f s =>
    if s.affected g h (s.folder f) then setAttention .folder (s.setFolder f (reopened (s.folder f))) else s) s

/-- The set of the affected folders (R94; log 14). -/
def affectedSet (g h : Fin 16) (s : State) : MemberSet 16 :=
  (List.finRange 16).foldl (fun set f => if s.affected g h (s.folder f) then withMember set f.val else set) 0

end Sys2Proof.Machine
end

