-- ==== Sys2Proof/Machine/Metering.lean ====
section
/-! DEFINITION. The Meter Reconciler's computations on one compartment: running totals and settling (R110 to R115), the
stop test (R116), endings (R118), interruption (R120 to R122) and reconciliation (R123). -/

namespace Sys2Proof.Machine

/-- A compartment is in progress while PERMITTED, FLOWING, STOPPED or SETTLED (R106). -/
def LoadingState.inProgress : LoadingState → Bool
  | .permitted | .flowing | .stopped | .settled => true
  | _ => false

def Compartment.inProgress (c : Compartment) : Bool := c.loading.inProgress

/-- How many compartments of a folder are in progress (R109). -/
def Folder.running (x : Folder) : Nat := (x.compartments.filter Compartment.inProgress).length

/-! ## Bands -/

/-- The amend band (R116, R123). -/
def MeterSettings.amendBand (m : MeterSettings) (declared : Nat) : Nat :=
  max m.amendFloor (declared * m.amendTenths / 1000)

/-- The pass band (R123). -/
def MeterSettings.passBand (m : MeterSettings) (declared : Nat) : Nat :=
  max m.passFloor (declared * m.passTenths / 1000)

/-! ## Running totals -/

/-- A count that saturates at 255 (R105). -/
def saturate255 (n : Nat) : Nat := min 255 n

/-- The two tests after a stopped report (R114): settle min first, then settle max. -/
def settleTests (m : MeterSettings) (c : Compartment) : Compartment :=
  if m.settleMin ≤ c.settleCount then { c with loading := .settled }
  else if m.settleMax ≤ c.stoppedReports then { c with loading := .unsettled }
  else { c with loading := .stopped }

/-- Step 3 for a flowing report (R113): a restart of the flow clears the stop-sent marker. -/
def flowingReport (c : Compartment) : Compartment :=
  { c with
    loading := .flowing
    settleCount := 0
    stoppedReports := 0
    stopSent := if c.loading = .stopped ∨ c.loading = .settled then false else c.stopSent }

/-- Step 3 for a stopped report that moved the total by `moved` from the previous metered (R114, R115). -/
def stoppedReport (m : MeterSettings) (moved : Nat) (c : Compartment) : Compartment :=
  match c.loading with
  | .settled =>
    if moved ≤ m.settleBand then c
    else settleTests m { c with settleCount := 1, stoppedReports := saturate255 (c.stoppedReports + 1) }
  | .stopped =>
    settleTests m
      { c with
        settleCount := if moved ≤ m.settleBand then c.settleCount + 1 else 1
        stoppedReports := saturate255 (c.stoppedReports + 1) }
  | _ => settleTests m { c with settleCount := 1, stoppedReports := 1 }

/-- Step 4, the stop test (R116). -/
def stopTest (m : MeterSettings) (fill : Option Nat) (bay : Fin 8) (c : Compartment) : Compartment :=
  if c.stopSent then c
  else if (fill.map (fun limit => decide (limit < c.metered))).getD false then
    { c with stopSent := true, owedStop := some ⟨.overfill, bay⟩ }
  else if c.declared + m.amendBand c.declared < c.metered then
    { c with stopSent := true, owedStop := some ⟨.overload, bay⟩ }
  else c

/-- An accepted total that is not lower than metered: steps 2 to 4 (R110). -/
def takeTotal (m : MeterSettings) (fill : Option Nat) (bay : Fin 8) (arrival total : Nat) (flowing : Bool)
    (c : Compartment) : Compartment :=
  let moved := total - c.metered
  let recorded := { c with metered := total, lastReport := some arrival }
  stopTest m fill bay (if flowing then flowingReport recorded else stoppedReport m moved recorded)

/-- A lower total is refused in silence and counted (R112). -/
def rejectTotal (c : Compartment) : Compartment := { c with rejectedReports := saturate255 (c.rejectedReports + 1) }

/-! ## Ending -/

/-- What END gives from a loading state; nothing where it is refused (R118). -/
def endedState : LoadingState → Option LoadingState
  | .settled => some .loaded
  | .permitted => some .skipped
  | .flowing | .stopped => some .unsettled
  | _ => none

/-- An in-progress compartment cut off (R120, R121, R122). -/
def interrupt (c : Compartment) : Compartment := if c.inProgress then { c with loading := .interrupted } else c

/-- A PLANNED compartment skipped at the end of loading (R119, R120). -/
def skipPlanned (c : Compartment) : Compartment := if c.loading = .planned then { c with loading := .skipped } else c

/-- The loading state a CARD gives a compartment from its plan (R74). -/
def planned (c : Compartment) : Compartment :=
  { c with loading := if c.substance.isSome then .planned else .empty }

/-- A STOP VOID owed to a bay, then the interruption (R117). -/
def voidRunning (bay : Fin 8) (c : Compartment) : Compartment :=
  if c.inProgress then { c with owedStop := some ⟨.voided, bay⟩, loading := .interrupted } else c

/-! ## Reconciliation -/

/-- The absolute difference of metered and declared (R123). -/
def deviation (c : Compartment) : Nat := (c.metered - c.declared) + (c.declared - c.metered)

/-- The result by the bands (R123). -/
def bandResult (m : MeterSettings) (c : Compartment) : Result :=
  if deviation c ≤ m.passBand c.declared then .matched
  else if deviation c ≤ m.amendBand c.declared then .amend
  else .mismatch

/-- A compartment with its result (R123); an EMPTY compartment keeps its result absent. -/
def reconcile (m : MeterSettings) (c : Compartment) : Compartment :=
  match c.loading with
  | .unsettled | .interrupted => { c with result := some .fault }
  | .loaded | .skipped => { c with result := some (bandResult m c) }
  | _ => c

end Sys2Proof.Machine
end

