-- ==== Sys2Proof/Machine/Folders.lean ====
section
/-! DEFINITION. The Folder Table's shared steps: evaluation (R76), end of loading (R75), the notice to Mode Control
(R191), freeing (R79), interruption of a bay's loading (R121, R122). -/

namespace Sys2Proof.Machine

/-- The results of a folder's non-EMPTY compartments (R76). -/
def Folder.results (x : Folder) : List Result :=
  (x.compartments.filter (fun c => c.substance.isSome)).filterMap Compartment.result

/-- A folder as its evaluation leaves it: state and hold reasons from the results, unread set (R76). -/
def evaluated (x : Folder) : Folder :=
  let fault := x.results.contains .fault
  let mismatch := x.results.contains .mismatch
  { x with
    state := if fault || mismatch then .held else if x.results.contains .amend then .amendWait else .ready
    holdReasons := ⟨fault, mismatch⟩
    unread := true }

/-- An evaluation of folder `f`, which stands as `x` (R76). -/
def evaluate (f : Fin 16) (x : Folder) (s : State) : State := setAttention .folder (s.setFolder f (evaluated x))

/-- Mode Control's act on the notice that a folder has left LOADING (R191). -/
def leftLoading (s : State) : State :=
  match s.mc.pendingTarget with
  | none => s
  | some target =>
    if s.loadingCount = 0 then setAttention .mode ((s.setMode target).setPendingTarget none) else s

/-- The end of loading of folder `f`, whose compartments now hold their results as `x` gives them (R75). -/
def endOfLoading (f : Fin 16) (x : Folder) (s : State) : State := leftLoading (evaluate f { x with bay := none } s)

/-- The live folder of an account becomes absent (R79). -/
def dropLiveFolder (i : Fin 64) (s : State) : State := s.setAccount i { s.account i with liveFolder := none }

/-- The live folders of a folder's drivers become absent (R79, step 1). -/
def dropDrivers (x : Folder) (s : State) : State :=
  let s' := dropLiveFolder x.primary s
  match x.second with
  | some i => dropLiveFolder i s'
  | none => s'

/-- Freeing of folder `f`: its drivers first, then its fields; the compartment list is kept (R79). -/
def freeFolder (f : Fin 16) (s : State) : State :=
  let x := s.folder f
  (dropDrivers x s).setFolder f (Folder.free x.compartments)

/-- The folder with its in-progress compartments interrupted, unread if there was one (R121). -/
def interruptedFolder (x : Folder) : Folder :=
  { x with compartments := x.compartments.map interrupt, unread := x.unread || x.compartments.any Compartment.inProgress }

/-- A bay's node has been lost: its LOADING folder's running compartments are interrupted (R121). -/
def loseBay (n : Fin 8) (s : State) : State :=
  match lowest 16 (fun f => (s.folder f).state == .loading && (s.folder f).bay == some n) with
  | none => s
  | some f =>
    if (s.folder f).compartments.any Compartment.inProgress then
      setAttention .folder (s.setFolder f (interruptedFolder (s.folder f)))
    else s

/-- The owed STOP of a compartment cleared. -/
def clearStop (c : Compartment) : Compartment := { c with owedStop := none }

/-- The interruption of one folder at a warm start: running compartments interrupted, owed STOPs cleared (R122). -/
def startInterruptOne (f : Fin 16) (s : State) : State :=
  let x := s.folder f
  let cleared := { interruptedFolder x with compartments := (interruptedFolder x).compartments.map clearStop }
  let s' := s.setFolder f cleared
  if x.compartments.any Compartment.inProgress then setAttention .folder s' else s'

/-- The interruption of every folder at a warm start (R122). -/
def startInterruption (s : State) : State := overFolders startInterruptOne s

/-- Does a compartment of the folder hold an owed STOP (R65)? -/
def Folder.owesStop (x : Folder) : Bool := x.compartments.any (fun c => c.owedStop.isSome)

/-- The folder CREATE FOLDER opens: the lowest FREE one that owes no STOP (R65). -/
def State.nextFolder (s : State) : Option (Fin 16) :=
  lowest 16 (fun f => (s.folder f).state == .free && !(s.folder f).owesStop)

/-- An account's live folder written (R65). -/
def setLiveFolder (f : Fin 16) (i : Fin 64) (s : State) : State :=
  s.setAccount i { s.account i with liveFolder := some f }

end Sys2Proof.Machine
end

