-- ==== Sys2Proof/Machine/Log.lean ====
section
/-! DEFINITION. The Delivery Log: entries and appends (R136, R137), the release check (R128, R129), the bytes of an entry
as read (12, "The log entry as read"). -/

namespace Sys2Proof.Machine

/-- The largest next sequence number (R137). -/
def maxSequence : Nat := 4294967295

/-- The log is full (R137). -/
def State.logFull (s : State) : Bool := decide (1024 ≤ s.dl.held.length) || s.dl.nextSequence == maxSequence

/-- The compartment records of an entry; a VOID entry bears no result (R136). -/
def logCompartments (withResults : Bool) (cs : List Compartment) : List LogCompartment :=
  cs.zipIdx.map (fun p =>
    ⟨p.2, p.1.substance, p.1.declared, p.1.metered, if withResults then p.1.result else none⟩)

/-- The entry of folder `f` for an append at a time (R136). -/
def entryOf (s : State) (f : Fin 16) (kind : LogKind) (time : Nat) (sPrimary sSecond : Option Nat) : LogEntry :=
  let x := s.folder f
  { sequence := s.dl.nextSequence
    kind := kind
    time := time
    folder := f
    tanker := x.tanker
    primaryCard := (s.account x.primary).card
    secondCard := x.second.bind (fun i => (s.account i).card)
    plannedDrive := x.plannedDrive
    plannedDuty := x.plannedDuty
    sPrimary := sPrimary
    sSecond := sSecond
    placards := s.placardSet Compartment.metered x.compartments
    compartments := logCompartments (kind != .voided) x.compartments }

/-- An append, in the five steps of R137. -/
def appendEntry (e : LogEntry) (s : State) : State :=
  let joined := { s with dl := { s.dl with held := s.dl.held ++ [e], nextSequence := s.dl.nextSequence + 1 } }
  let raised := joined.raiseHighWater e.time
  if raised.dl.level ≤ raised.dl.held.length then setAttention .log raised else raised

/-! ## The release check -/

/-- The drivers of a folder: the primary, and the second when present. -/
def Folder.drivers (x : Folder) : List (Fin 64) := x.primary :: x.second.toList

/-- The codes tested for endorsement at a release: compartments whose metered quantity is above 0 (R129). -/
def releaseCodes (x : Folder) : List Nat := codesWhere (fun c => decide (0 < c.metered)) x.compartments

/-- The reason set of a release at an arrival minute (R128, R129). -/
def releaseReasons (s : State) (x : Folder) (confirmed : MemberSet 16) (t : Nat) : List Reason :=
  let tests := x.drivers.map (fun i => endorsementTest s (s.account i) (releaseCodes x) (s.dayOfMinute t))
  (if x.drivers.any (fun i => (s.account i).state != .active) then [.suspended] else [])
    ++ (if tests.any EndorsementTest.endorsement then [.endorsement] else [])
    ++ (if tests.any EndorsementTest.expired then [.expired] else [])
    ++ (hoursTest s x t).reasons
    ++ (if confirmed ≠ s.placardSet Compartment.metered x.compartments then [.placard] else [])
    ++ (if s.logFull then [.logFull] else [])

/-- A grant (R130): the append, then the folder RELEASED with its release time. -/
def grantRelease (f : Fin 16) (arrival : Nat) (s : State) : State :=
  let x := s.folder f
  let hours := hoursTest s x (minuteOf arrival)
  let kind : LogKind := if x.overrideMark then .dispatchOverride else .dispatch
  let e := entryOf s f kind arrival (some hours.primary.shiftAllowance) (hours.second.map Figures.shiftAllowance)
  (appendEntry e s).setFolder f { x with state := .released, releaseTime := some arrival }

/-! ## Bytes of an entry -/

def LogCompartment.bytes (c : LogCompartment) : List Byte :=
  byte1 c.index ++ bytesSubstance c.substance ++ bytes2 c.declared ++ bytes2 c.metered ++ byte1 (resultCode c.result)

/-- An entry as READ LOG gives it (12). -/
def LogEntry.bytes (e : LogEntry) : List Byte :=
  bytes4 e.sequence ++ byte1 e.kind.code ++ bytes4 e.time ++ byte1 e.folder.val ++ bytes4 e.tanker
    ++ bytesCard e.primaryCard ++ bytesCard e.secondCard ++ bytes2 e.plannedDrive ++ bytes2 e.plannedDuty
    ++ bytes2OrAbsent e.sPrimary ++ bytes2OrAbsent e.sSecond ++ bytes2 e.placards.toNat
    ++ byte1 e.compartments.length ++ e.compartments.flatMap LogCompartment.bytes

end Sys2Proof.Machine
end

