-- ==== Sys2Proof/Machine/FolderCommands.lean ====
section
/-! DEFINITION. The office commands on folders (04_load_folders.md; FINISH LOADING and READ COMPARTMENT of
06_metering_and_reconciliation.md). -/

namespace Sys2Proof.Machine

/-! ## CREATE FOLDER -/

/-- Capacities of compartments (R63). -/
def capacityOk (n : Nat) : Bool := within 100 60000 n

/-- The drivers CREATE FOLDER names, or nothing where an index is out of range or the two are equal (R65). -/
def namedDrivers (primary second : Byte) : Option (Fin 64 × Option (Fin 64)) :=
  match indexOf 64 primary, secondDriverOf second with
  | some p, .absent => some (p, none)
  | some p, .account q => if q = p then none else some (p, some q)
  | _, _ => none

/-- The capacities CREATE FOLDER carries, or nothing where the list is refused (R65). -/
def namedCapacities (count : Byte) (slots : Vector (BitVec 16) 6) : Option (List Nat) :=
  let used := (slotsUsed count slots).map BitVec.toNat
  if within 1 6 count.toNat && used.all capacityOk then some used else none

/-- The folder CREATE FOLDER opens (R65). -/
def openedFolder (tanker : Nat) (p : Fin 64) (q : Option (Fin 64)) (drive duty : Nat) (capacities : List Nat)
    (arrival : Nat) : Folder :=
  { Folder.free (capacities.map Compartment.starting) with
    state := .opened
    tanker := tanker
    primary := p
    second := q
    plannedDrive := drive
    plannedDuty := duty
    created := arrival }

/-- The folder opened and the drivers' live folders written (R65). -/
def openFolder (f : Fin 16) (x : Folder) (s : State) : State :=
  x.drivers.foldl (fun s i => setLiveFolder f i s) (s.setFolder f x)

/-- CREATE FOLDER's checks 2 to 5, then its effect (R65). -/
def createChecked (x : Folder) (s : State) : Answer :=
  if x.drivers.any (fun i => (s.account i).state == .free) then answerRefused s .unknownDriver
  else if x.drivers.any (fun i => (s.account i).state == .suspended) then answerRefused s .suspended
  else if x.drivers.any (fun i => (s.account i).liveFolder.isSome) then answerRefused s .driverBusy
  else match s.nextFolder with
    | none => answerRefused s .full
    | some f => answerOk (openFolder f x s) (byte1 f.val)

/-- CREATE FOLDER at its owner (R65). -/
def createFolderAnswer (tanker : BitVec 32) (primary second : Byte) (drive duty : BitVec 16) (count : Byte)
    (slots : Vector (BitVec 16) 6) (arrival : Nat) (s : State) : Answer :=
  if tanker = 0 ∨ 1440 < drive.toNat ∨ 1440 < duty.toNat then answerRefused s .range
  else match namedDrivers primary second, namedCapacities count slots with
    | some (p, q), some capacities =>
      createChecked (openedFolder tanker.toNat p q drive.toNat duty.toNat capacities arrival) s
    | _, _ => answerRefused s .range

/-- CREATE FOLDER (R65). -/
def execCreateFolder (o : OfficeFrame) (tanker : BitVec 32) (primary second : Byte) (drive duty : BitVec 16)
    (count : Byte) (capacities : Vector (BitVec 16) 6) (s : State) : Host.Outcome State Fault Refusal :=
  .next (officeCommand .createFolder o (createFolderAnswer tanker primary second drive duty count capacities) s)

/-! ## Planning -/

/-- A command on one folder: RANGE for a number above 15, else its act. -/
def onFolder (folder : Byte) (act : Fin 16 → State → Answer) (s : State) : Answer :=
  match indexOf 16 folder with
  | none => answerRefused s .range
  | some f => act f s

/-- A command on a folder in one of some states: BAD_STATE outside them. -/
def onFolderIn (folder : Byte) (states : List FolderState) (act : Fin 16 → State → Answer) (s : State) : Answer :=
  onFolder folder (fun f s => if states.contains (s.folder f).state then act f s else answerRefused s .badState) s

/-- SET COMPARTMENT on a compartment that exists: its three plan fields written together (R66). -/
def writePlan (f : Fin 16) (k : Nat) (c : Compartment) (capacity : Nat) (substance : Option Nat) (declared : Nat)
    (s : State) : State :=
  s.setFolder f
    ((s.folder f).setCompartment k { c with capacity := capacity, substance := substance, declared := declared })

/-- SET COMPARTMENT at its owner (R66). -/
def setCompartmentAnswer (folder compartment : Byte) (capacity substance declared : BitVec 16) (_arrival : Nat)
    (s : State) : Answer :=
  onFolder folder (fun f s =>
    match (s.folder f).compartments[compartment.toNat]? with
    | none => answerRefused s .range
    | some c =>
      if capacityOk capacity.toNat = false ∨ 60000 < declared.toNat then answerRefused s .range
      else if (s.folder f).state ≠ .opened then answerRefused s .badState
      else answerOk (writePlan f compartment.toNat c capacity.toNat (substanceOf substance) declared.toNat s) []) s

/-- SET COMPARTMENT (R66). -/
def execSetCompartment (o : OfficeFrame) (folder compartment : Byte) (capacity substance declared : BitVec 16)
    (s : State) : Host.Outcome State Fault Refusal :=
  .next (officeCommand .setCompartment o (setCompartmentAnswer folder compartment capacity substance declared) s)

/-- Does a papers line lie within its ranges, for a compartment list of a length (R67)? -/
def lineOk (length : Nat) (line : BitVec 16 × Byte) : Bool :=
  line.1 != 0 && line.2 != 0 && !namesBeyond line.2 length

/-- SET PAPERS at its owner (R67). -/
def setPapersAnswer (folder count : Byte) (slots : Vector (BitVec 16 × Byte) 6) (_arrival : Nat) (s : State) : Answer :=
  onFolder folder (fun f s =>
    let x := s.folder f
    let lines := slotsUsed count slots
    if 6 < count.toNat ∨ lines.all (lineOk x.compartments.length) = false then answerRefused s .range
    else if x.state ≠ .opened then answerRefused s .badState
    else answerOk (s.setFolder f { x with papers := lines.map (fun p => ⟨p.1.toNat, p.2⟩) }) []) s

/-- SET PAPERS (R67). -/
def execSetPapers (o : OfficeFrame) (folder count : Byte) (lines : Vector (BitVec 16 × Byte) 6) (s : State) :
    Host.Outcome State Fault Refusal :=
  .next (officeCommand .setPapers o (setPapersAnswer folder count lines) s)

/-- The states OPEN to READY. -/
def openToReady : List FolderState := [.opened, .papered, .assigned, .loading, .amendWait, .held, .ready]

/-- SET TRIP at its owner (R68). -/
def setTripAnswer (folder : Byte) (drive duty : BitVec 16) (_arrival : Nat) (s : State) : Answer :=
  if 1440 < drive.toNat ∨ 1440 < duty.toNat then answerRefused s .range
  else onFolderIn folder openToReady (fun f s =>
    answerOk (s.setFolder f { s.folder f with plannedDrive := drive.toNat, plannedDuty := duty.toNat }) []) s

/-- SET TRIP (R68). -/
def execSetTrip (o : OfficeFrame) (folder : Byte) (drive duty : BitVec 16) (s : State) :
    Host.Outcome State Fault Refusal :=
  .next (officeCommand .setTrip o (setTripAnswer folder drive duty) s)

/-- SUBMIT of an OPEN folder: the plan check, then PAPERED with the placard set of the declared quantities (R69). -/
def submitOpen (arrival : Nat) (f : Fin 16) (s : State) : Answer :=
  let x := s.folder f
  match planCheck s x (s.dayOfMinute (minuteOf arrival)) with
  | some failure => ⟨s, some failure.reason, failure.data⟩
  | none =>
    let placards := s.placardSet Compartment.declared x.compartments
    answerOk (s.setFolder f { x with state := .papered, placards := placards }) (bytes2 placards.toNat)

/-- SUBMIT (R69). -/
def execSubmit (o : OfficeFrame) (folder : Byte) (s : State) : Host.Outcome State Fault Refusal :=
  .next (officeCommand .submit o (fun arrival => onFolderIn folder [.opened] (submitOpen arrival)) s)

/-- REOPEN of a PAPERED folder (R70). -/
def reopenPapered (f : Fin 16) (s : State) : Answer :=
  answerOk (s.setFolder f { s.folder f with state := .opened, placards := 0 }) []

/-- REOPEN (R70). -/
def execReopen (o : OfficeFrame) (folder : Byte) (s : State) : Host.Outcome State Fault Refusal :=
  .next (officeCommand .reopen o (fun _ => onFolderIn folder [.papered] reopenPapered) s)

/-! ## Bays -/

/-- Is a bay busy for a folder: held by another, its node not enrolled, or ISOLATED (R72)? -/
def State.bayBusy (s : State) (f : Fin 16) (b : Fin 8) : Bool :=
  (lowest 16 (fun g => g != f && (s.folder g).bay == some b)).isSome
    || !hasMember s.rlc.enrolled b.val || (s.node (nodeOfBay b)).state == .isolated

/-- ASSIGN BAY at its owner (R72). -/
def assignBayAnswer (folder bay : Byte) (_arrival : Nat) (s : State) : Answer :=
  match indexOf 16 folder, indexOf 8 bay with
  | some f, some b =>
    if s.mc.mode ≠ .run ∨ s.mc.pendingTarget.isSome then answerRefused s .mode
    else if (s.folder f).state ≠ .papered then answerRefused s .badState
    else if s.bayBusy f b then answerRefused s .bayBusy
    else answerOk (s.setFolder f { s.folder f with state := .assigned, bay := some b }) []
  | _, _ => answerRefused s .range

/-- ASSIGN BAY (R72). -/
def execAssignBay (o : OfficeFrame) (folder bay : Byte) (s : State) : Host.Outcome State Fault Refusal :=
  .next (officeCommand .assignBay o (assignBayAnswer folder bay) s)

/-- UNASSIGN of an ASSIGNED folder (R73). -/
def unassignAssigned (f : Fin 16) (s : State) : Answer :=
  answerOk (s.setFolder f { s.folder f with state := .papered, bay := none }) []

/-- UNASSIGN (R73). -/
def execUnassign (o : OfficeFrame) (folder : Byte) (s : State) : Host.Outcome State Fault Refusal :=
  .next (officeCommand .unassign o (fun _ => onFolderIn folder [.assigned] unassignAssigned) s)

/-! ## After loading -/

/-- AMEND of a compartment whose result may be amended: declared written, result recomputed, folder evaluated
(R77, R124). -/
def amendCompartment (f : Fin 16) (k : Nat) (c : Compartment) (declared : Nat) (s : State) : Answer :=
  let amended := reconcile s.mr { c with declared := declared }
  let x := (s.folder f).setCompartment k amended
  answerOk (evaluate f x s) (byte1 (resultCode amended.result) ++ byte1 (evaluated x).state.code)

/-- AMEND at its owner (R77). -/
def amendAnswer (folder compartment : Byte) (declared : BitVec 16) (_arrival : Nat) (s : State) : Answer :=
  onFolder folder (fun f s =>
    match (s.folder f).compartments[compartment.toNat]? with
    | none => answerRefused s .range
    | some c =>
      if [FolderState.amendWait, .held].contains (s.folder f).state = false
          ∨ (c.result ≠ some .amend ∧ c.result ≠ some .mismatch) then answerRefused s .badState
      else if ((s.fillLimit c).map (fun limit => decide (limit < declared.toNat))).getD false then
        answerRefused s .fillLimit
      else amendCompartment f compartment.toNat c declared.toNat s) s

/-- AMEND (R77). -/
def execAmend (o : OfficeFrame) (folder compartment : Byte) (declared : BitVec 16) (s : State) :
    Host.Outcome State Fault Refusal :=
  .next (officeCommand .amend o (amendAnswer folder compartment declared) s)

/-- OVERRIDE of an AMEND_WAIT or HELD folder (R78). -/
def overrideWaiting (f : Fin 16) (s : State) : Answer :=
  answerOk
    (setAttention .folder (s.setFolder f
      { s.folder f with state := .ready, overrideMark := true, holdReasons := ⟨false, false⟩, unread := true })) []

/-- OVERRIDE (R78). -/
def execOverrideFolder (o : OfficeFrame) (folder : Byte) (s : State) : Host.Outcome State Fault Refusal :=
  .next (officeCommand .overrideFolder o (fun _ => onFolderIn folder [.amendWait, .held] overrideWaiting) s)

/-! ## VOID and FINISH LOADING -/

/-- Has some compartment a metered quantity above 0 (R80)? -/
def Folder.hasProduct (x : Folder) : Bool := x.compartments.any (fun c => decide (0 < c.metered))

/-- VOID's step 1: the append, if product was metered (R80). -/
def voidLogged (arrival : Nat) (f : Fin 16) (s : State) : State :=
  if (s.folder f).hasProduct then appendEntry (entryOf s f .voided arrival none none) s else s

/-- VOID's step 2: the running compartments of a LOADING folder owe STOP VOID and are interrupted (R80, R117). -/
def voidStops (f : Fin 16) (s : State) : State :=
  match (s.folder f).state, (s.folder f).bay with
  | .loading, some b => s.setFolder f { s.folder f with compartments := (s.folder f).compartments.map (voidRunning b) }
  | _, _ => s

/-- VOID of a folder from OPEN to READY (R80). -/
def voidHeld (arrival : Nat) (f : Fin 16) (s : State) : Answer :=
  if (s.folder f).hasProduct && s.logFull then answerRefused s .logFull
  else
    let freed := freeFolder f (voidStops f (voidLogged arrival f s))
    answerOk (if (s.folder f).state = .loading then leftLoading freed else freed)
      (bytesSequence (if (s.folder f).hasProduct then some s.dl.nextSequence else none))

/-- VOID (R80). -/
def execVoidFolder (o : OfficeFrame) (folder : Byte) (s : State) : Host.Outcome State Fault Refusal :=
  .next (officeCommand .voidFolder o (fun arrival => onFolderIn folder openToReady (voidHeld arrival)) s)

/-- A folder's compartments as the end of loading leaves them: PLANNED ones skipped, results given (R119, R120). -/
def closedOut (m : MeterSettings) (cs : List Compartment) : List Compartment :=
  cs.map (fun c => reconcile m (skipPlanned c))

/-- FINISH LOADING of a LOADING folder (R120). -/
def finishHeld (f : Fin 16) (s : State) : Answer :=
  let x := s.folder f
  let finished := { x with compartments := closedOut s.mr (x.compartments.map interrupt) }
  answerOk (endOfLoading f finished s) (byte1 (evaluated finished).state.code)

/-- FINISH LOADING (R120). -/
def execFinishLoading (o : OfficeFrame) (folder : Byte) (s : State) : Host.Outcome State Fault Refusal :=
  .next (officeCommand .finishLoading o (fun _ => onFolderIn folder [.loading] finishHeld) s)

/-! ## Reads -/

def HoldReasons.byte (h : HoldReasons) : Byte := BitVec.ofNat 8 ((if h.fault then 1 else 0) + (if h.mismatch then 2 else 0))

/-- A compartment as READ FOLDER gives it (R83). -/
def Compartment.folderBytes (c : Compartment) : List Byte :=
  bytes2 c.capacity ++ bytesSubstance c.substance ++ bytes2 c.declared ++ byte1 c.loading.code ++ bytes2 c.metered
    ++ byte1 c.rejectedReports ++ byte1 (resultCode c.result)

def PapersLine.bytes (p : PapersLine) : List Byte := bytes2 p.code ++ [p.compartments]

/-- A folder as READ FOLDER gives it: the fields R83 lists, in their order. DESIGN CHOICE (log 33): unread, which R199 names
as a field and R83 does not list, is not among them. -/
def Folder.bytes (x : Folder) : List Byte :=
  byte1 x.state.code ++ bytes4 x.tanker ++ byte1 x.primary.val ++ byteIndex x.second ++ bytes2 x.plannedDrive
    ++ bytes2 x.plannedDuty ++ byteIndex x.bay ++ bytes2 x.placards.toNat ++ [x.holdReasons.byte]
    ++ bytes4 x.lastRefusal.toNat ++ byteOfBool x.overrideMark ++ bytes4OrAbsent x.releaseTime ++ bytes4 x.created
    ++ x.compartments.flatMap Compartment.folderBytes ++ x.papers.flatMap PapersLine.bytes

/-- READ FOLDER of a folder in any state but FREE: the folder as it stands, then unread is cleared (R83). -/
def readFolderAnswer (f : Fin 16) (s : State) : Answer :=
  if (s.folder f).state = .free then answerRefused s .badState
  else answerOk (s.setFolder f { s.folder f with unread := false }) (s.folder f).bytes

/-- READ FOLDER (R83). -/
def execReadFolder (o : OfficeFrame) (folder : Byte) (s : State) : Host.Outcome State Fault Refusal :=
  .next (officeCommand .readFolder o (fun _ => onFolder folder readFolderAnswer) s)

/-- An owed STOP as READ COMPARTMENT gives it: reason, then bay (R125; log 12). -/
def owedStopBytes (o : Option OwedStop) : List Byte :=
  match o with
  | some o => byte1 o.reason.code ++ byte1 o.bay.val
  | none => [Config.absentStopReason, 0xFF]

/-- A compartment as READ COMPARTMENT gives it (R125). -/
def Compartment.bytes (c : Compartment) : List Byte :=
  bytes2 c.capacity ++ bytesSubstance c.substance ++ bytes2 c.declared ++ byte1 c.loading.code ++ bytes2 c.metered
    ++ byte1 c.settleCount ++ byte1 c.stoppedReports ++ byte1 c.rejectedReports ++ bytes4OrAbsent c.lastReport
    ++ byte1 (resultCode c.result) ++ owedStopBytes c.owedStop ++ byteOfBool c.stopSent

/-- READ COMPARTMENT at its owner (R125). -/
def readCompartmentAnswer (folder compartment : Byte) (_arrival : Nat) (s : State) : Answer :=
  onFolder folder (fun f s =>
    match (s.folder f).compartments[compartment.toNat]? with
    | none => answerRefused s .range
    | some c => answerOk s c.bytes) s

/-- READ COMPARTMENT (R125). -/
def execReadCompartment (o : OfficeFrame) (folder compartment : Byte) (s : State) : Host.Outcome State Fault Refusal :=
  .next (officeCommand .readCompartment o (readCompartmentAnswer folder compartment) s)

/-- The lowest non-FREE folder whose unread mark is set (R84). -/
def State.flaggedFolder (s : State) : Option (Fin 16) :=
  lowest 16 (fun f => (s.folder f).state != .free && (s.folder f).unread)

/-- NEXT FLAGGED FOLDER (R84). -/
def execNextFlaggedFolder (o : OfficeFrame) (s : State) : Host.Outcome State Fault Refusal :=
  .next (officeCommand .nextFlaggedFolder o (fun _ s => answerOk s (byteIndex s.flaggedFolder)) s)

end Sys2Proof.Machine
end

