-- ==== Sys2Proof/Machine/GoodsCommands.lean ====
section
/-! DEFINITION. The office commands on the dangerous goods tables (05_dangerous_goods_checks.md). -/

namespace Sys2Proof.Machine

/-- A table edit that only CONFIG takes: MODE in the other modes (11, "What each mode permits"). -/
def inConfig (act : State → Answer) (s : State) : Answer :=
  if s.mc.mode = .config then act s else answerRefused s .mode

/-- SET SUBSTANCE with its fields in range: checks 3 and 4, then the entry written (R90). -/
def writeSubstance (e : Substance) (s : State) : Answer :=
  let put := putSubstance e s.gcu.substances
  match s.substance e.code with
  | some held =>
    if held ≠ e ∧ (s.namedBy e.code).isSome then answerRefused s .inUse
    else answerOk (s.setSubstances put) (byte1 put.length)
  | none =>
    if 128 ≤ s.gcu.substances.length then answerRefused s .full
    else answerOk (s.setSubstances put) (byte1 put.length)

/-- SET SUBSTANCE at its owner (R90). -/
def setSubstanceAnswer (code : BitVec 16) (group cls : Byte) (fill : BitVec 16) (_arrival : Nat) (s : State) : Answer :=
  inConfig (fun s =>
    match indexOf 16 group, indexOf 8 cls with
    | some g, some c =>
      if code = 0 ∨ within 500 1000 fill.toNat = false then answerRefused s .range
      else writeSubstance ⟨code.toNat, g, c, fill.toNat⟩ s
    | _, _ => answerRefused s .range) s

/-- SET SUBSTANCE (R90). -/
def execSetSubstance (o : OfficeFrame) (code : BitVec 16) (group cls : Byte) (fill : BitVec 16) (s : State) :
    Host.Outcome State Fault Refusal :=
  .next (officeCommand .setSubstance o (setSubstanceAnswer code group cls fill) s)

/-- CLEAR SUBSTANCE at its owner (R91). -/
def clearSubstanceAnswer (code : BitVec 16) (_arrival : Nat) (s : State) : Answer :=
  inConfig (fun s =>
    if code = 0 then answerRefused s .range
    else if (s.substance code.toNat).isNone then answerRefused s .unknownSubstance
    else if (s.namedBy code.toNat).isSome then answerRefused s .inUse
    else
      let left := dropSubstance code.toNat s.gcu.substances
      answerOk (s.setSubstances left) (byte1 left.length)) s

/-- CLEAR SUBSTANCE (R91). -/
def execClearSubstance (o : OfficeFrame) (code : BitVec 16) (s : State) : Host.Outcome State Fault Refusal :=
  .next (officeCommand .clearSubstance o (clearSubstanceAnswer code) s)

/-- READ SUBSTANCE at its owner (R92). R199 gives a risk group and an endorsement class no width in a reply: 1 byte each is a
DESIGN CHOICE (log 16). -/
def readSubstanceAnswer (code : BitVec 16) (_arrival : Nat) (s : State) : Answer :=
  if code = 0 then answerRefused s .range
  else match s.substance code.toNat with
    | none => answerRefused s .unknownSubstance
    | some e =>
      answerOk s (byte1 e.group.val ++ byte1 e.cls.val ++ bytes2 e.fill
        ++ byteOfBool (s.namedBy code.toNat).isSome ++ byteIndex (s.namedBy code.toNat))

/-- READ SUBSTANCE (R92). -/
def execReadSubstance (o : OfficeFrame) (code : BitVec 16) (s : State) : Host.Outcome State Fault Refusal :=
  .next (officeCommand .readSubstance o (readSubstanceAnswer code) s)

/-- An entry as LIST SUBSTANCES gives it, four fields (R92), the group and the class 1 byte each: DESIGN CHOICE (log 16). -/
def Substance.bytes (e : Substance) : List Byte :=
  bytes2 e.code ++ byte1 e.group.val ++ byte1 e.cls.val ++ bytes2 e.fill

/-- LIST SUBSTANCES at its owner (R92). -/
def listSubstancesAnswer (position : Byte) (_arrival : Nat) (s : State) : Answer :=
  if 127 < position.toNat then answerRefused s .range
  else answerOk s
    (byte1 s.gcu.substances.length ++ ((s.gcu.substances.drop position.toNat).take 16).flatMap Substance.bytes)

/-- LIST SUBSTANCES (R92). -/
def execListSubstances (o : OfficeFrame) (position : Byte) (s : State) : Host.Outcome State Fault Refusal :=
  .next (officeCommand .listSubstances o (listSubstancesAnswer position) s)

/-- SET MATRIX PAIR with its fields in range: the cells written and the affected folders returned, if the ruling
differs (R94, R95). -/
def writePair (g h : Fin 16) (r : Ruling) (s : State) : Answer :=
  if s.cell g h = r then answerOk s (bytes2 0)
  else answerOk (returnAffected g h (s.setCells g h r)) (bytes2 (affectedSet g h s).toNat)

/-- SET MATRIX PAIR at its owner (R94). -/
def setMatrixPairAnswer (g h ruling : Byte) (_arrival : Nat) (s : State) : Answer :=
  inConfig (fun s =>
    match indexOf 16 g, indexOf 16 h, Ruling.ofCode ruling with
    | some g, some h, some r => if g = h ∨ g = 0 ∨ h = 0 then answerRefused s .range else writePair g h r s
    | _, _, _ => answerRefused s .range) s

/-- SET MATRIX PAIR (R94). -/
def execSetMatrixPair (o : OfficeFrame) (g h ruling : Byte) (s : State) : Host.Outcome State Fault Refusal :=
  .next (officeCommand .setMatrixPair o (setMatrixPairAnswer g h ruling) s)

/-- READ MATRIX at its owner (R96). -/
def readMatrixAnswer (g : Byte) (_arrival : Nat) (s : State) : Answer :=
  match indexOf 16 g with
  | none => answerRefused s .range
  | some g => answerOk s ((List.finRange 16).flatMap (fun h => byte1 (s.cell g h).code))

/-- READ MATRIX (R96). -/
def execReadMatrix (o : OfficeFrame) (g : Byte) (s : State) : Host.Outcome State Fault Refusal :=
  .next (officeCommand .readMatrix o (readMatrixAnswer g) s)

/-- SET THRESHOLD at its owner (R97). -/
def setThresholdAnswer (group : Byte) (quantity : BitVec 16) (_arrival : Nat) (s : State) : Answer :=
  inConfig (fun s =>
    if group = 0 ∨ 60000 < quantity.toNat then answerRefused s .range
    else match indexOf 15 (group - 1) with
      | none => answerRefused s .range
      | some k => answerOk (s.setThreshold k quantity.toNat) []) s

/-- SET THRESHOLD (R97). -/
def execSetThreshold (o : OfficeFrame) (group : Byte) (quantity : BitVec 16) (s : State) :
    Host.Outcome State Fault Refusal :=
  .next (officeCommand .setThreshold o (setThresholdAnswer group quantity) s)

/-- READ THRESHOLDS (R97). -/
def execReadThresholds (o : OfficeFrame) (s : State) : Host.Outcome State Fault Refusal :=
  .next (officeCommand .readThresholds o (fun _ s => answerOk s (s.gcu.thresholds.toList.flatMap bytes2)) s)

end Sys2Proof.Machine
end

