-- ==== Sys2Proof/Machine/HoursCommands.lean ====
section
/-! DEFINITION. The office commands on limit profiles and allowance figures (02_hours_arithmetic.md). -/

namespace Sys2Proof.Machine

/-- Ranges and cross-conditions of a profile's items (R32, R33). -/
def Limits.inRange (l : Limits) : Bool :=
  within 60 1440 l.dMax && within 60 1440 l.wMax && within 1 120 l.brkMin && within 60 1440 l.rMin
    && within 60 11520 l.cMax && decide (l.warnLead ≤ 120) && decide (l.dMax ≤ l.wMax) && within 30 l.dMax l.bMax

/-- A recompute of every non-FREE account that names a profile (R34). -/
def recomputeProfile (p : ProfileLetter) (s : State) : State :=
  overAccounts (fun i s =>
    if (s.account i).state ≠ .free ∧ (s.account i).profile = p then recompute i s else s) s

/-- A taken SET PROFILE: both copies in CONFIG (R34), the pending copy in RUN (R35). -/
def writeProfile (p : ProfileLetter) (l : Limits) (s : State) : State :=
  if s.mc.mode = .config then recomputeProfile p (s.setProfile p ⟨l, l, false⟩)
  else s.setProfile p ⟨(s.profile p).active, l, true⟩

/-- SET PROFILE at its owner (R33). -/
def setProfileAnswer (letter : Byte) (l : Limits) (_arrival : Nat) (s : State) : Answer :=
  if s.mc.mode = .listen then answerRefused s .mode
  else match ProfileLetter.ofCode letter with
    | none => answerRefused s .range
    | some p => if l.inRange then answerOk (writeProfile p l s) [] else answerRefused s .range

/-- SET PROFILE (R33, R34, R35). -/
def execSetProfile (o : OfficeFrame) (letter : Byte) (dMax wMax bMax brkMin rMin cMax warnLead : BitVec 16)
    (s : State) : Host.Outcome State Fault Refusal :=
  .next (officeCommand .setProfile o
    (setProfileAnswer letter
      ⟨dMax.toNat, wMax.toNat, bMax.toNat, brkMin.toNat, rMin.toNat, cMax.toNat, warnLead.toNat⟩) s)

/-- CANCEL PENDING PROFILE at its owner (R36). -/
def cancelPendingProfileAnswer (letter : Byte) (_arrival : Nat) (s : State) : Answer :=
  if s.mc.mode = .listen then answerRefused s .mode
  else match ProfileLetter.ofCode letter with
    | none => answerRefused s .range
    | some p =>
      if (s.profile p).pendingValid then
        answerOk (s.setProfile p ⟨(s.profile p).active, (s.profile p).active, false⟩) []
      else answerRefused s .badState

/-- CANCEL PENDING PROFILE (R36). -/
def execCancelPendingProfile (o : OfficeFrame) (letter : Byte) (s : State) : Host.Outcome State Fault Refusal :=
  .next (officeCommand .cancelPendingProfile o (cancelPendingProfileAnswer letter) s)

/-- The seven items as they travel (12, "Two commands carry their lists in fixed slots"). -/
def Limits.bytes (l : Limits) : List Byte :=
  bytes2 l.dMax ++ bytes2 l.wMax ++ bytes2 l.bMax ++ bytes2 l.brkMin ++ bytes2 l.rMin ++ bytes2 l.cMax
    ++ bytes2 l.warnLead

/-- READ PROFILE at its owner (R38). -/
def readProfileAnswer (letter : Byte) (_arrival : Nat) (s : State) : Answer :=
  match ProfileLetter.ofCode letter with
  | none => answerRefused s .range
  | some p =>
    let x := s.profile p
    answerOk s (x.active.bytes ++ byteOfBool x.pendingValid ++ x.pendingCopy.bytes)

/-- READ PROFILE (R38). -/
def execReadProfile (o : OfficeFrame) (letter : Byte) (s : State) : Host.Outcome State Fault Refusal :=
  .next (officeCommand .readProfile o (readProfileAnswer letter) s)

/-- The figures as READ ALLOWANCE gives them (R39). -/
def Figures.bytes (g : Figures) (p : ProfileLetter) : List Byte :=
  bytes4 g.minute ++ bytes2 g.today ++ byte1 p.code ++ bytesSigned g.a1 ++ bytesSigned g.a2 ++ bytesSigned g.a3
    ++ bytesSigned g.a4 ++ bytes2 g.cycleDuty ++ bytes2 g.shiftAllowance ++ bytes2 g.runAllowance ++ bytes2 g.cycleRoom
    ++ bytes4OrAbsent g.viewShift ++ byteOfBool g.lazyBreak ++ byteOfBool g.lazyRest

/-- READ ALLOWANCE at its owner (R39): the figures at the arrival minute. -/
def readAllowanceAnswer (index : Byte) (arrival : Nat) (s : State) : Answer :=
  match indexOf 64 index with
  | none => answerRefused s .range
  | some i =>
    if (s.account i).state = .free then answerRefused s .unknownDriver
    else answerOk s ((s.figures i (minuteOf arrival)).bytes (s.account i).profile)

/-- READ ALLOWANCE (R39). -/
def execReadAllowance (o : OfficeFrame) (index : Byte) (s : State) : Host.Outcome State Fault Refusal :=
  .next (officeCommand .readAllowance o (readAllowanceAnswer index) s)

/-- The hours test as HOURS CHECK gives it (R41). DESIGN CHOICE (log 16): the two figures of a second driver the folder does
not have keep their places, as absent minutes. -/
def HoursTest.bytes (h : HoursTest) (t : Nat) : List Byte :=
  bytes4 t ++ bytes4 (reasonSet h.reasons).toNat ++ bytes2 h.primary.shiftAllowance ++ bytes2 h.primary.cycleRoom
    ++ bytes2OrAbsent (h.second.map Figures.shiftAllowance) ++ bytes2OrAbsent (h.second.map Figures.cycleRoom)

/-- HOURS CHECK at its owner (R41): the hours test at the arrival minute. -/
def hoursCheckAnswer (folder : Byte) (arrival : Nat) (s : State) : Answer :=
  match indexOf 16 folder with
  | none => answerRefused s .range
  | some f =>
    if (s.folder f).state = .free then answerRefused s .badState
    else answerOk s ((hoursTest s (s.folder f) (minuteOf arrival)).bytes (minuteOf arrival))

/-- HOURS CHECK (R41). -/
def execHoursCheck (o : OfficeFrame) (folder : Byte) (s : State) : Host.Outcome State Fault Refusal :=
  .next (officeCommand .hoursCheck o (hoursCheckAnswer folder) s)

end Sys2Proof.Machine
end

