-- ==== Sys2Proof/Machine/Link.lean ====
section
/-! DEFINITION. The rack link: node health (R163 to R166), the taking of frames (R168, R169), the Rights Check of link
requests (R153, R154, R156), the reply queue (R170), beacons (R171) and their bytes (R200). -/

namespace Sys2Proof.Machine

/-! ## Node health -/

/-- Is a node enrolled and not ISOLATED, so that its slots are not ignored (R161)? -/
def State.listens (s : State) (n : Fin 9) : Bool := hasMember s.rlc.enrolled n.val && (s.node n).state != .isolated

/-- The entry after a good frame (R163). -/
def goodFrameEntry (arrival : Nat) (e : NodeEntry) : NodeEntry :=
  let faults := e.faults - 1
  { state :=
      match e.state with
      | .unknown | .absent => if 96 ≤ faults then .warning else .present
      | .present => .present
      | .warning => if faults < 64 then .present else .warning
      | .isolated => .isolated
    faults := faults
    silence := 0
    lastGood := some arrival }

/-- The entry after a damaged frame (R164). -/
def damagedFrameEntry (e : NodeEntry) : NodeEntry :=
  let faults := saturate255 (e.faults + 8)
  { e with
    faults := faults
    state :=
      if faults = 255 then .isolated
      else match e.state with
        | .unknown => if 96 ≤ faults then .warning else .unknown
        | .present => if 96 ≤ faults then .warning else .present
        | st => st }

/-- The entry after an empty slot (R165). -/
def emptySlotEntry (limit : Nat) (e : NodeEntry) : NodeEntry :=
  let silence := if e.silence = limit then e.silence else e.silence + 1
  { e with silence := silence, state := if silence = limit then .absent else e.state }

/-- Does a move of state enter WARNING, ABSENT or ISOLATED (R166)? -/
def raisesNode (old new : NodeState) : Bool :=
  old != new && (new == .warning || new == .absent || new == .isolated)

/-- Does a move of state lose the node's bay (R166)? -/
def losesBay (old new : NodeState) : Bool := old != new && (new == .absent || new == .isolated)

/-- A node's entry written, and an entry into WARNING, ABSENT or ISOLATED handed on (R166). -/
def updateNode (n : Fin 9) (e : NodeEntry) (s : State) : State :=
  let old := (s.node n).state
  let written := s.setNode n e
  let noted := if raisesNode old e.state then setAttention .node written else written
  match bayOfNode n with
  | some b => if losesBay old e.state then loseBay b noted else noted
  | none => noted

/-! ## The reply queue -/

/-- Order of the classes (R170). -/
def ReplyClass.rank : ReplyClass → Nat
  | .one => 1 | .two => 2 | .three => 3

/-- A record joins behind its own class and those before it, ahead of every later class (R170). -/
def joinQueue (r : ReplyRecord) : List ReplyRecord → List ReplyRecord
  | [] => [r]
  | x :: rest => if r.cls.rank < x.cls.rank then r :: x :: rest else x :: joinQueue r rest

/-- Has the queue a free place (R170)? -/
def State.queueFree (s : State) : Bool := decide (s.rlc.queue.length + s.rlc.reserved < 16)

/-- A place reserved for a taken frame, whose node joins the taken set (R168, R169 step 4). -/
def takeFrame (n : Fin 9) (s : State) : State :=
  { s with rlc := { s.rlc with taken := withMember s.rlc.taken n.val, reserved := s.rlc.reserved + 1 } }

/-- The class of a reply to a request of a kind (R170). -/
def replyClass (k : MessageKind) : ReplyBody → ReplyClass
  | .grant | .refuse _ => .one
  | .permit => .two
  | .deny _ => if k = .start then .two else .three
  | .accept => .three

/-- What an owner answers a link request: the records after it, and its reply if one is made (R108, R170). -/
structure LinkAnswer where
  state : State
  reply : Option (ReplyBody × Argument)
deriving DecidableEq, Repr

def replied (s : State) (body : ReplyBody) (argument : Argument) : LinkAnswer := ⟨s, some (body, argument)⟩

/-- A refusal with DENY and a reason, the records as they were. -/
def deniedBy (s : State) (r : Reason) : LinkAnswer := ⟨s, some (.deny r, .none)⟩

/-- No reply: the reserved place is given up (R170). -/
def silent (s : State) : LinkAnswer := ⟨s, none⟩

/-- The reserved place is taken by the reply, or given up (R170). -/
def settleReply (n : Fin 9) (tag : Byte) (cls : ReplyBody → ReplyClass) (a : LinkAnswer) : State :=
  let queue := match a.reply with
    | none => a.state.rlc.queue
    | some (body, argument) => joinQueue ⟨n, tag, body, argument, cls body⟩ a.state.rlc.queue
  { a.state with rlc := { a.state.rlc with queue := queue, reserved := a.state.rlc.reserved - 1 } }

/-! ## Taking and rights -/

/-- Is a good frame that arrived in a mode taken: RUN, not IDLE, a free place (R168)? A place that was free at the
arrival is free still at the end of the slot: no frame is handled and no beacon sent between them (R169), and a start
discards the frame. -/
def State.takes (s : State) (mode : Mode) (isIdle : Bool) : Bool := mode == .run && !isIdle && s.queueFree

/-- A good frame in the slot of node `n` (R169). At its arrival it is stamped. At the end of its slot, health first, then
the frame is taken and served, or not. The slots of a node not enrolled or ISOLATED are ignored; without power or with
RESET low there is no slot (log 7). -/
def goodFrame (n : Fin 9) (m : SlotMoment) (isIdle : Bool) (serve : Nat → State → State) (s : State) : State :=
  if s.running then
    match m with
    | .received => s.frameReceived n
    | .slotEnd =>
      if s.listens n then
        let arrival := s.frameArrival n
        let heard := updateNode n (goodFrameEntry arrival (s.node n)) s.slotClosed
        if heard.takes (s.arrivalMode n) isIdle then serve arrival (takeFrame n heard) else heard
      else s.slotClosed
  else s

/-- The role of a frame, by its slot (R145). -/
def roleOfNode (n : Fin 9) : Role := match bayOfNode n with
  | some b => .bay b
  | none => .gate

/-- The kinds a bay may send, and the kinds the gate may send (R153). -/
def bayKind : MessageKind → Bool
  | .card | .start | .total | .ending | .done | .idle => true
  | _ => false

def gateKind : MessageKind → Bool
  | .entry | .release | .exit | .idle => true
  | _ => false

/-- A link denial: the entry and ACCESS, then the DENY record (R156). -/
def linkDenial (k : MessageKind) (n : Fin 9) (reason : Reason) (argument : Argument) (folderNamed : Option Byte)
    (arrival : Nat) (s : State) : LinkAnswer :=
  replied (recordDenial ⟨roleOfNode n, some n, .link k, none, reason, folderNamed, arrival⟩ s) (.deny reason) argument

/-- A taken request of a kind only a bay may send. -/
def bayRights (k : MessageKind) (n : Fin 9) (arrival : Nat) (owner : Fin 8 → State → LinkAnswer) (s : State) :
    LinkAnswer :=
  match bayOfNode n with
  | some b => owner b s
  | none => linkDenial k n .deniedRole .none none arrival s

/-- A taken request of a kind only the gate may send. -/
def gateRights (k : MessageKind) (n : Fin 9) (arrival : Nat) (owner : State → LinkAnswer) (s : State) : LinkAnswer :=
  match bayOfNode n with
  | some _ => linkDenial k n .deniedRole .none none arrival s
  | none => owner s

/-- The window of a bay: the folder number the frame carries is that of the bay's folder (R154). -/
def windowed (k : MessageKind) (n : Fin 9) (number : Byte) (arrival : Nat) (owner : Fin 8 → Fin 16 → State → LinkAnswer)
    (b : Fin 8) (s : State) : LinkAnswer :=
  match s.folderOfBay b with
  | none => linkDenial k n .deniedWindow .none (some number) arrival s
  | some f =>
    if f.val = number.toNat then owner b f s
    else linkDenial k n .deniedWindow (.folder f) (some number) arrival s

/-- A request frame of kind `k`, served under the rights `rights` gives it (R169). -/
def requestFrame (k : MessageKind) (l : LinkFrame) (serve : Nat → State → LinkAnswer) (s : State) : State :=
  goodFrame l.node l.moment (k == .idle)
    (fun arrival s => settleReply l.node l.tag (replyClass k) (serve arrival s)) s

/-- A request without a window that a bay may send: CARD (R154). -/
def bayRequest (k : MessageKind) (l : LinkFrame) (owner : Nat → Fin 8 → State → LinkAnswer) (s : State) : State :=
  requestFrame k l (fun arrival s => bayRights k l.node arrival (owner arrival) s) s

/-- A request with a window that a bay may send: START, TOTAL, END, DONE (R154). -/
def windowRequest (k : MessageKind) (l : LinkFrame) (number : Byte) (owner : Nat → Fin 8 → Fin 16 → State → LinkAnswer)
    (s : State) : State :=
  bayRequest k l (fun arrival b s => windowed k l.node number arrival (owner arrival) b s) s

/-- A request that the gate may send: ENTRY, RELEASE, EXIT (R155). -/
def gateRequest (k : MessageKind) (l : LinkFrame) (owner : Nat → State → LinkAnswer) (s : State) : State :=
  requestFrame k l (fun arrival s => gateRights k l.node arrival (owner arrival) s) s

/-! ## Beacons -/

/-- The owed STOPs of a run of compartments of folder `f`, the first at index `k` (R171). -/
def stopRecords (f : Fin 16) : Nat → List Compartment → List BeaconRecord
  | _, [] => []
  | k, c :: rest =>
    match c.owedStop with
    | some o => .stop o.bay f k o.reason :: stopRecords f (k + 1) rest
    | none => stopRecords f (k + 1) rest

/-- Every owed STOP, by folder number and then compartment index (R171). -/
def State.owedStops (s : State) : List BeaconRecord :=
  (List.finRange 16).flatMap (fun f => stopRecords f 0 (s.folder f).compartments)

/-- The first `room` owed STOPs of a run of compartments cleared, and the room left. -/
def carryStops : Nat → List Compartment → List Compartment × Nat
  | room, [] => ([], room)
  | 0, cs => (cs, 0)
  | room + 1, c :: rest =>
    if c.owedStop.isSome then
      let r := carryStops room rest
      (clearStop c :: r.1, r.2)
    else
      let r := carryStops (room + 1) rest
      (c :: r.1, r.2)

/-- The STOPs carried of the folders listed, `room` records being left in the beacon (R171, step 1). -/
def carryFolders : List (Fin 16) → Nat → State → State
  | [], _, s => s
  | f :: rest, room, s =>
    let r := carryStops room (s.folder f).compartments
    carryFolders rest r.2 (s.setFolder f { s.folder f with compartments := r.1 })

/-- The most records a beacon holds (R171). -/
def beaconRoom : Nat := 12

/-- The beacon that assembly would send now (R171). DESIGN CHOICE (log 29): it carries the taken set gathered in the cycle
before, whatever the mode is now, the first beacon after the mode has left RUN in mid-cycle among them (R168). -/
def State.nextBeacon (s : State) : Beacon :=
  let stops := s.owedStops.take beaconRoom
  { cycle := s.rlc.cycle
    mode := s.mc.mode
    taken := s.rlc.taken
    records := stops ++ (s.rlc.queue.take (beaconRoom - stops.length)).map BeaconRecord.reply }

/-- Assembly and sending of a beacon, one event (R171): STOPs carried are cleared, replies carried leave the queue, the
taken set starts empty, the cycle number rises by one. -/
def sendBeacon (s : State) : State :=
  let b := s.nextBeacon
  let carried := carryFolders (List.finRange 16) beaconRoom s
  { carried with
    rlc := { carried.rlc with
      queue := carried.rlc.queue.drop (beaconRoom - (s.owedStops.take beaconRoom).length)
      taken := 0
      cycle := carried.rlc.cycle + 1 }
    underway := { carried.underway with frame := none }
    out := { carried.out with beacon := some b } }

/-! ## Bytes of a beacon (R200) -/

/-- An argument as it travels (R199). -/
def Argument.value : Argument → Nat
  | .none => 0xFFFFFFFF
  | .folder f => f.val
  | .compartment c => c
  | .folderState st => st.code
  | .sequence n => n
  | .account i => i.val

def ReplyBody.code : ReplyBody → Nat
  | .accept => 1 | .permit => 2 | .deny _ => 3 | .grant => 4 | .refuse _ => 5

/-- Bytes 4 to 7 of a reply record: the reason, the reason set, or 0. -/
def ReplyBody.reasonValue : ReplyBody → Nat
  | .deny r => r.code
  | .refuse set => set.toNat
  | _ => 0

/-- A record's 11 bytes (R200). -/
def BeaconRecord.bytes : BeaconRecord → List Byte
  | .stop bay f k reason => byte1 6 ++ byte1 bay.val ++ byte1 f.val ++ bytes4 reason.code ++ bytes4 k
  | .reply r =>
    byte1 r.body.code ++ byte1 r.node.val ++ [r.tag] ++ bytes4 r.body.reasonValue ++ bytes4 r.argument.value

/-- A beacon as it travels (R200). -/
def Beacon.bytes (b : Beacon) : List Byte :=
  withCheckWord ([b.cycle] ++ byte1 b.mode.code ++ bytes2 b.taken.toNat ++ byte1 b.records.length
    ++ b.records.flatMap BeaconRecord.bytes)

end Sys2Proof.Machine
end

