-- ==== Sys2Proof/Machine/LinkRequests.lean ====
section
/-! DEFINITION. What comes over the rack link: the bays' requests (04 R74; 06 R108 to R119), the gate's (07 R127 to
R134), the other slot events and the beacon (09). -/

namespace Sys2Proof.Machine

/-! ## CARD -/

/-- An accepted CARD at folder `f`: an ASSIGNED folder becomes LOADING with its compartments PLANNED or EMPTY; then the
account goes on DUTY (R74, R12). -/
def acceptCard (f : Fin 16) (i : Fin 64) (arrival : Nat) (s : State) : State :=
  let x := s.folder f
  let begun :=
    if x.state = .assigned then
      s.setFolder f { x with state := .loading, compartments := x.compartments.map planned }
    else s
  (changeStatus i .duty arrival begun).state

/-- CARD at its owners, from bay `b` (R12, R74). A mode change holds new loading back while it is pending, and from a frame
that arrived under it also where it has taken the part out of RUN since, `leftRun` (R82, R192, log 30). -/
def cardAnswer (leftRun : Bool) (tanker number : BitVec 32) (arrival : Nat) (b : Fin 8) (s : State) : LinkAnswer :=
  match s.findCard number.toNat with
  | none => deniedBy s .unknownDriver
  | some i =>
    match s.folderOfBay b with
    | none => deniedBy s .badState
    | some f =>
      let x := s.folder f
      if tanker.toNat ≠ x.tanker ∨ x.drivers.contains i = false then deniedBy s .wrongCard
      else if (s.account i).state = .suspended then deniedBy s .suspended
      else if x.state = .assigned ∧ (s.mc.pendingTarget.isSome ∨ leftRun) then deniedBy s .mode
      else replied (acceptCard f i arrival s) .accept (.folder f)

/-- CARD (R74, R82). -/
def execCard (l : LinkFrame) (tanker number : BitVec 32) (s : State) : Host.Outcome State Fault Refusal :=
  .next (bayRequest .card l (cardAnswer (s.leftRunSince l.node) tanker number) s)

/-! ## START, TOTAL, END, DONE -/

/-- A request on a compartment of a LOADING folder: RANGE for an index beyond the list, BAD_STATE when the folder is not
LOADING (R108). -/
def onCompartment (compartment : Byte) (act : Compartment → State → LinkAnswer) (f : Fin 16) (s : State) : LinkAnswer :=
  match (s.folder f).compartments[compartment.toNat]? with
  | none => deniedBy s .range
  | some c => if (s.folder f).state = .loading then act c s else deniedBy s .badState

/-- One compartment of folder `f` written. -/
def State.setCompartment (s : State) (f : Fin 16) (k : Nat) (c : Compartment) : State :=
  s.setFolder f ((s.folder f).setCompartment k c)

/-- START on a compartment of a LOADING folder (R109). -/
def startOn (f : Fin 16) (k : Nat) (c : Compartment) (s : State) : LinkAnswer :=
  if c.loading ≠ .planned then deniedBy s .badState
  else if s.mc.pendingTarget.isSome then deniedBy s .mode
  else if s.mr.arms ≤ (s.folder f).running then deniedBy s .arms
  else replied (s.setCompartment f k { c with loading := .permitted }) .permit (.compartment k)

/-- START at its owner (R109). -/
def startAnswer (compartment : Byte) (_arrival : Nat) (_b : Fin 8) (f : Fin 16) (s : State) : LinkAnswer :=
  onCompartment compartment (startOn f compartment.toNat) f s

/-- START (R109). -/
def execStart (l : LinkFrame) (folder compartment : Byte) (s : State) : Host.Outcome State Fault Refusal :=
  .next (windowRequest .start l folder (startAnswer compartment) s)

/-- TOTAL on a compartment of a LOADING folder (R110, R112). -/
def totalOn (b : Fin 8) (f : Fin 16) (k litres arrival : Nat) (flowing : Bool) (c : Compartment) (s : State) :
    LinkAnswer :=
  if c.inProgress = false then deniedBy s .badState
  else if litres < c.metered then silent (s.setCompartment f k (rejectTotal c))
  else silent (s.setCompartment f k (takeTotal s.mr (s.fillLimit c) b arrival litres flowing c))

/-- TOTAL at its owner (R110); an unknown flowing indication is RANGE with the compartment index (R199). -/
def totalAnswer (compartment : Byte) (litres : BitVec 16) (flowing : Byte) (arrival : Nat) (b : Fin 8) (f : Fin 16)
    (s : State) : LinkAnswer :=
  match flowingOfCode flowing with
  | none => deniedBy s .range
  | some flow => onCompartment compartment (totalOn b f compartment.toNat litres.toNat arrival flow) f s

/-- TOTAL (R110). -/
def execTotal (l : LinkFrame) (folder compartment : Byte) (litres : BitVec 16) (flowing : Byte) (s : State) :
    Host.Outcome State Fault Refusal :=
  .next (windowRequest .total l folder (totalAnswer compartment litres flowing) s)

/-- END on a compartment of a LOADING folder (R118). -/
def endOn (f : Fin 16) (k : Nat) (c : Compartment) (s : State) : LinkAnswer :=
  match endedState c.loading with
  | none => deniedBy s .badState
  | some st => silent (s.setCompartment f k { c with loading := st })

/-- END at its owner (R118). -/
def endAnswer (compartment : Byte) (_arrival : Nat) (_b : Fin 8) (f : Fin 16) (s : State) : LinkAnswer :=
  onCompartment compartment (endOn f compartment.toNat) f s

/-- END (R118). -/
def execEndCompartment (l : LinkFrame) (folder compartment : Byte) (s : State) : Host.Outcome State Fault Refusal :=
  .next (windowRequest .ending l folder (endAnswer compartment) s)

/-- DONE at its owner (R108, R119). -/
def doneAnswer (_arrival : Nat) (_b : Fin 8) (f : Fin 16) (s : State) : LinkAnswer :=
  let x := s.folder f
  if x.state ≠ .loading then deniedBy s .badState
  else if x.compartments.any Compartment.inProgress then deniedBy s .inProgress
  else
    let finished := { x with compartments := closedOut s.mr x.compartments }
    replied (endOfLoading f finished s) .accept (.folderState (evaluated finished).state)

/-- DONE (R119). -/
def execDoneLoading (l : LinkFrame) (folder : Byte) (s : State) : Host.Outcome State Fault Refusal :=
  .next (windowRequest .done l folder doneAnswer s)

/-! ## The gate -/

/-- ENTRY at its owner (R12, R134). -/
def entryAnswer (number : BitVec 32) (arrival : Nat) (s : State) : LinkAnswer :=
  if number = 0 then deniedBy s .range
  else match s.findCard number.toNat with
    | none => deniedBy s .unknownDriver
    | some i => replied (changeStatus i .duty arrival s).state .accept (.account i)

/-- ENTRY (R134). -/
def execEntry (l : LinkFrame) (number : BitVec 32) (s : State) : Host.Outcome State Fault Refusal :=
  .next (gateRequest .entry l (entryAnswer number) s)

/-- RELEASE of a READY folder: granted with an empty reason set, refused otherwise (R128 to R131). -/
def releaseReady (confirmed : MemberSet 16) (arrival : Nat) (f : Fin 16) (s : State) : LinkAnswer :=
  let reasons := releaseReasons s (s.folder f) confirmed (minuteOf arrival)
  if reasons = [] then replied (grantRelease f arrival s) .grant (.sequence s.dl.nextSequence)
  else
    replied (s.setFolder f { s.folder f with lastRefusal := reasonSet reasons }) (.refuse (reasonSet reasons))
      (.folderState .ready)

/-- RELEASE at its owner (R127). -/
def releaseAnswer (folder : Byte) (placards : BitVec 16) (arrival : Nat) (s : State) : LinkAnswer :=
  match indexOf 16 folder with
  | none => replied s (.refuse (reasonSet [.range])) .none
  | some f =>
    if placardsOk placards = false then replied s (.refuse (reasonSet [.range])) .none
    else if (s.folder f).state ≠ .ready then
      replied s (.refuse (reasonSet [.badState])) (.folderState (s.folder f).state)
    else releaseReady placards arrival f s

/-- RELEASE (R127). -/
def execRelease (l : LinkFrame) (folder : Byte) (placards : BitVec 16) (s : State) :
    Host.Outcome State Fault Refusal :=
  .next (gateRequest .release l (releaseAnswer folder placards) s)

/-- The drivers of a folder leave with it: the primary on DRIVE, the second on DUTY (R133, steps 1 and 2). -/
def driversLeave (x : Folder) (arrival : Nat) (s : State) : State :=
  let driven := (changeStatus x.primary .drive arrival s).state
  match x.second with
  | some i => (changeStatus i .duty arrival driven).state
  | none => driven

/-- EXIT at its owner (R133). -/
def exitAnswer (folder : Byte) (arrival : Nat) (s : State) : LinkAnswer :=
  match indexOf 16 folder with
  | none => deniedBy s .range
  | some f =>
    if (s.folder f).state ≠ .released then deniedBy s .badState
    else replied (freeFolder f (driversLeave (s.folder f) arrival s)) .accept (.folder f)

/-- EXIT (R133). -/
def execExit (l : LinkFrame) (folder : Byte) (s : State) : Host.Outcome State Fault Refusal :=
  .next (gateRequest .exit l (exitAnswer folder) s)

/-! ## Other slot events, and the beacon -/

/-- IDLE (R163): the node's health only; an IDLE frame is never taken (R168). -/
def execIdle (l : LinkFrame) (s : State) : Host.Outcome State Fault Refusal :=
  .next (requestFrame .idle l (fun _ s => silent s) s)

/-- The tag of a frame whose bytes before the check word are `body` (log 13). -/
def bodyTag (body : List Byte) : Byte := (body[1]?).getD Config.missingTag

/-- Does a body's kind code name IDLE (R168; log 19)? -/
def bodyIsIdle (body : List Byte) : Bool := body.head? == some (kindRow .idle).1

/-- MALFORMED FRAME (R161, R200): good for health; if taken, answered with DENY FORMAT in class 3. -/
def execMalformedFrame (node : Fin 9) (moment : SlotMoment) (body : List Byte) (s : State) :
    Host.Outcome State Fault Refusal :=
  .next (goodFrame node moment (bodyIsIdle body)
    (fun _ s => settleReply node (bodyTag body) (fun _ => .three) (deniedBy s .format)) s)

/-- A slot event that acts on the node's entry alone, unless the slot is ignored (R161). -/
def slotEvent (n : Fin 9) (entry : NodeEntry → NodeEntry) (s : State) : State :=
  if s.running then
    if s.listens n then updateNode n (entry (s.node n)) s.slotClosed else s.slotClosed
  else s

/-- DAMAGED FRAME (R164). -/
def execDamagedFrame (node : Fin 9) (s : State) : Host.Outcome State Fault Refusal :=
  .next (slotEvent node damagedFrameEntry s)

/-- EMPTY SLOT (R165). -/
def execEmptySlot (node : Fin 9) (s : State) : Host.Outcome State Fault Refusal :=
  .next (slotEvent node (emptySlotEntry s.rlc.silenceLimit) s)

/-- BEACON (R171). No beacon is sent while RESET is low (R197). -/
def execBeacon (s : State) : Host.Outcome State Fault Refusal := .next (if s.running then sendBeacon s else s)

end Sys2Proof.Machine
end

