-- ==== Sys2Proof/Machine/Starts.lean ====
section
/-! DEFINITION. Starts (R195 to R198): the cold values, the common start, the steps of a cold and of a warm start, and the
start a power-on owes. -/

namespace Sys2Proof.Machine

/-- Every backup-domain record takes its cold value (R195, step 1). -/
def coldValues (s : State) : State :=
  { s with
    tc := State.reset.tc
    accounts := State.reset.accounts
    hu := { State.reset.hu with alarms := s.hu.alarms }
    folders := State.reset.folders
    gcu := State.reset.gcu
    mr := State.reset.mr
    dl := State.reset.dl
    rc := { s.rc with allowed := State.reset.rc.allowed }
    rlc := { s.rlc with cyclePeriod := 250, silenceLimit := 8, enrolled := 0b111111111#9 } }

/-- The start common to both kinds (R198). A minute boundary still owed is not taken: the rebuild serves
(R60). What is under way at the ports is discarded: the port is idle and a new link cycle begins. -/
def commonStart (s : State) : State :=
  { s with
    tc := { s.tc with minuteDue := false }
    hu := { s.hu with alarms := [] }
    rc := { s.rc with denials := [] }
    rlc := { s.rlc with nodes := Vector.replicate 9 NodeEntry.start, taken := 0, queue := [], reserved := 0, cycle := 0 }
    op := ⟨none, 0, 0b11111111#8⟩
    mc := { s.mc with mode := .config, pendingTarget := none }
    underway := s.discardUnderway.underway }

/-- The last start record written (R187). -/
def State.setLastStart (s : State) (kind : StartKind) (cause : StartCause) : State :=
  { s with mc := { s.mc with lastStart := ⟨kind, cause⟩ } }

/-- The part supplied and RESET high: a start has been made. -/
def State.setRunning (s : State) : State := { s with pins := ⟨true, false, none⟩ }

/-- A cold start (R195). -/
def coldStart (cause : StartCause) (s : State) : State :=
  (startAlarms (setAttention .clock (commonStart (coldValues s)))).setLastStart .cold cause

/-- A warm start (R197). -/
def warmStart (cause : StartCause) (s : State) : State :=
  (startAlarms (startInterruption (setAttention .restart (commonStart s)))).setLastStart .warm cause

/-- The start that a power-on makes, by BKOK (R194). -/
def startByPower (kind : StartKind) (s : State) : State :=
  match kind with
  | .cold => coldStart .power s.setRunning
  | .warm => warmStart .power s.setRunning

/-- VDD rises, and BKOK decides the start (R194). With RESET held low the start is made when RESET returns high (R197);
until then the part is supplied and not working. -/
def powerOn (kind : StartKind) (s : State) : State :=
  if s.pins.resetLow then { s.nothingUnderway with pins := ⟨true, true, some kind⟩ }
  else startByPower kind s.nothingUnderway

/-- RESET returns high (R197): the start a power-on owes, or else a warm start. Without VDD nothing starts (log 8). -/
def resetReturns (s : State) : State :=
  if s.pins.powered then
    match s.pins.startOwed with
    | some kind => startByPower kind s
    | none => warmStart .reset s.setRunning
  else { s with pins := { s.pins with resetLow := false } }

end Sys2Proof.Machine
end

