-- ==== Sys2Proof/Machine/PortCommands.lean ====
section
/-! DEFINITION. The office port's own commands and events (10), mode requests, starts and power (11). -/

namespace Sys2Proof.Machine

/-! ## Reply buffer and attention -/

/-- READ REPLY (R180): the buffer is shifted out on the bytes after the length byte, and is not replaced. -/
def execReadReply (o : OfficeFrame) (s : State) : Host.Outcome State Fault Refusal :=
  .next (transaction o.moment (transactionBytes 0 o.extra)
    (fun s => endTransaction (summaryAndZeros s 3 ++ clocked o.extra (replyBytes s.op.reply)) s) s)

/-- An attention flag set of two bytes, as a reply gives it (R199). -/
def attentionBytes (set : MemberSet 8) : List Byte := bytes2 set.toNat

/-- ACK ATTENTION at its owner (R183). -/
def ackAttentionAnswer (flags : BitVec 16) (_arrival : Nat) (s : State) : Answer :=
  if attentionOk flags then
    let s' := { s with op := { s.op with flags := s.op.flags &&& ~~~(flags.setWidth 8) } }
    answerOk s' (attentionBytes s'.op.flags)
  else answerRefused s .range

/-- ACK ATTENTION (R183). -/
def execAckAttention (o : OfficeFrame) (flags : BitVec 16) (s : State) : Host.Outcome State Fault Refusal :=
  .next (officeCommand .ackAttention o (ackAttentionAnswer flags) s)

/-- The enables after a write under a mask (R184). -/
def writtenEnables (mask value enables : MemberSet 8) : MemberSet 8 := (enables &&& ~~~mask) ||| (value &&& mask)

/-- SET ENABLES at its owner (R184). -/
def setEnablesAnswer (mask value : BitVec 16) (_arrival : Nat) (s : State) : Answer :=
  if attentionOk mask && attentionOk value then
    let s' := { s with op :=
      { s.op with enables := writtenEnables (mask.setWidth 8) (value.setWidth 8) s.op.enables } }
    answerOk s' (attentionBytes s'.op.enables)
  else answerRefused s .range

/-- SET ENABLES (R184). -/
def execSetEnables (o : OfficeFrame) (mask value : BitVec 16) (s : State) : Host.Outcome State Fault Refusal :=
  .next (officeCommand .setEnables o (setEnablesAnswer mask value) s)

/-- READ ATTENTION (R184). DESIGN CHOICE (log 16): the attention reason travels in 1 byte, its code that of the summary byte. -/
def execReadAttention (o : OfficeFrame) (s : State) : Host.Outcome State Fault Refusal :=
  .next (officeCommand .readAttention o
    (fun _ s => answerOk s
      (attentionBytes s.op.flags ++ attentionBytes s.op.enables ++ byte1 (attentionReasonCode s))) s)

/-! ## Events of the office port -/

/-- The argument bytes a frame clocks: none for a length byte above 64, which completes it (R175). -/
def argumentBytes (length : Byte) : Nat := if 64 < length.toNat then 0 else length.toNat

/-- UNKNOWN COMMAND CODE (R177, step 2): result FORMAT, the code as received, no data. -/
def execUnknownCommandCode (o : OfficeFrame) (code length : Byte) (s : State) : Host.Outcome State Fault Refusal :=
  let n := transactionBytes (argumentBytes length) o.extra
  .next (transaction o.moment n
    (fun s => placeReply o code (answerRefused (endTransaction (summaryAndZeros s n) s) .format)) s)

/-- DROPPED FRAME (R175): nothing changes; what was clocked shifted out the summary byte and zero bytes, or all-ones bytes
where the transaction was begun while the port was busy (R176). -/
def execDroppedFrame (bytes : List Byte) (_bits : Fin 8) (s : State) : Host.Outcome State Fault Refusal :=
  .next (transaction .atOnce bytes.length (fun s => endTransaction (summaryAndZeros s bytes.length) s) s)

/-- BUSY TRANSACTION (R176): a transaction begun while the port is busy ends. All-ones bytes are shifted out, nothing is
taken. -/
def execBusyTransaction (bytes : Nat) (s : State) : Host.Outcome State Fault Refusal :=
  .next (transaction .atOnce bytes (refusedEnds bytes) s)

/-! ## Modes -/

/-- The mode request's outcome for a target (R188, R189); nothing where it is refused with NO_CLOCK. -/
def requestedMode (target : Mode) (s : State) : Option State :=
  match s.mc.mode with
  | .run =>
    match s.mc.pendingTarget with
    | none =>
      if target = .run then some s
      else if s.loadingCount = 0 then some (s.setMode target)
      else some (s.setPendingTarget (some target))
    | some _ => if target = .run then some (s.setPendingTarget none) else some (s.setPendingTarget (some target))
  | _ =>
    if target = .run then (if s.tc.clockSet then some (s.setMode .run) else none) else some (s.setMode target)

/-- The pending target as it travels (log 10). -/
def pendingByte (t : Option Mode) : Byte := (t.map (fun m => BitVec.ofNat 8 m.code)).getD Config.absentPendingTarget

/-- REQUEST MODE at its owner (R188, R189). -/
def requestModeAnswer (target : Byte) (_arrival : Nat) (s : State) : Answer :=
  match Mode.ofCode target with
  | none => answerRefused s .range
  | some m =>
    match requestedMode m s with
    | none => answerRefused s .noClock
    | some s' => answerOk s' (byte1 s'.mc.mode.code ++ [pendingByte s'.mc.pendingTarget] ++ byte1 s.loadingCount)

/-- REQUEST MODE (R188). -/
def execRequestMode (o : OfficeFrame) (target : Byte) (s : State) : Host.Outcome State Fault Refusal :=
  .next (officeCommand .requestMode o (requestModeAnswer target) s)

/-- What READ MODE gives (R193). -/
def modeBytes (s : State) : List Byte :=
  byte1 s.mc.mode.code ++ [pendingByte s.mc.pendingTarget] ++ byte1 s.loadingCount ++ byteOfBool s.tc.clockSet
    ++ byte1 s.mc.lastStart.kind.code ++ byte1 s.mc.lastStart.cause.code

/-- READ MODE (R193). -/
def execReadMode (o : OfficeFrame) (s : State) : Host.Outcome State Fault Refusal :=
  .next (officeCommand .readMode o (fun _ s => answerOk s (modeBytes s)) s)

/-- CLEAR ALL at its owner (R196): the cold start, whose emptied reply buffer then takes this reply. -/
def clearAllAnswer (_arrival : Nat) (s : State) : Answer :=
  if s.mc.mode = .config then answerOk (coldStart .clearAll s) [] else answerRefused s .mode

/-- CLEAR ALL (R196). -/
def execClearAll (o : OfficeFrame) (s : State) : Host.Outcome State Fault Refusal :=
  .next (officeCommand .clearAll o clearAllAnswer s)

/-! ## Starts and power -/

/-- COLD START: power-on with BKOK low (R195). -/
def execColdStart (s : State) : Host.Outcome State Fault Refusal := .next (powerOn .cold s)

/-- WARM START (R197): power-on with BKOK high, or RESET returning high. -/
def execWarmStart (cause : WarmCause) (s : State) : Host.Outcome State Fault Refusal :=
  .next (match cause with
    | .power => powerOn .warm s
    | .reset => resetReturns s)

/-- RESET ASSERTED (R197): RESET is held low from now on; a command or frame not yet handled is discarded. -/
def execResetAsserted (s : State) : Host.Outcome State Fault Refusal :=
  .next { s.discardUnderway with pins := { s.pins with resetLow := true } }

/-- POWER FAIL (R194): VDD is gone; the backup domain keeps its records, and what was not yet handled is lost. -/
def execPowerFail (s : State) : Host.Outcome State Fault Refusal :=
  .next { s.nothingUnderway with pins := { s.pins with powered := false, startOwed := none } }

end Sys2Proof.Machine
end

