-- ==== Sys2Proof/Machine/TableCommands.lean ====
section
/-! DEFINITION. The office commands on the metering settings (06), the delivery log (07), the rights (08) and the rack
link (09). -/

namespace Sys2Proof.Machine

/-! ## Metering settings -/

/-- Ranges and cross-conditions of the eight settings (R107). -/
def MeterSettings.inRange (m : MeterSettings) : Bool :=
  within 1 4 m.arms && within 1 15 m.settleMin && decide (m.settleBand ≤ 50) && within m.settleMin 63 m.settleMax
    && decide (m.passTenths ≤ 100) && decide (m.passFloor ≤ 1000) && within m.passTenths 200 m.amendTenths
    && within m.passFloor 2000 m.amendFloor

/-- SET METERING at its owner (R107). -/
def setMeteringAnswer (m : MeterSettings) (_arrival : Nat) (s : State) : Answer :=
  inConfig (fun s => if m.inRange then answerOk { s with mr := m } [] else answerRefused s .range) s

/-- SET METERING (R107). -/
def execSetMetering (o : OfficeFrame) (arms settleMin settleBand settleMax passTenths : Byte) (passFloor : BitVec 16)
    (amendTenths : Byte) (amendFloor : BitVec 16) (s : State) : Host.Outcome State Fault Refusal :=
  .next (officeCommand .setMetering o
    (setMeteringAnswer ⟨arms.toNat, settleMin.toNat, settleBand.toNat, settleMax.toNat, passTenths.toNat,
      passFloor.toNat, amendTenths.toNat, amendFloor.toNat⟩) s)

/-- The settings as they travel (12). -/
def MeterSettings.bytes (m : MeterSettings) : List Byte :=
  byte1 m.arms ++ byte1 m.settleMin ++ byte1 m.settleBand ++ byte1 m.settleMax ++ byte1 m.passTenths
    ++ bytes2 m.passFloor ++ byte1 m.amendTenths ++ bytes2 m.amendFloor

/-- READ METERING (R107). -/
def execReadMetering (o : OfficeFrame) (s : State) : Host.Outcome State Fault Refusal :=
  .next (officeCommand .readMetering o (fun _ s => answerOk s s.mr.bytes) s)

/-! ## Delivery log -/

/-- What READ LOG OLDEST gives (R139). -/
def oldestBytes (s : State) : List Byte :=
  bytes2 s.dl.held.length ++ (match s.dl.held with
    | [] => bytes4 s.dl.nextSequence
    | e :: _ => e.bytes)

/-- READ LOG OLDEST (R139). -/
def execReadLogOldest (o : OfficeFrame) (s : State) : Host.Outcome State Fault Refusal :=
  .next (officeCommand .readLogOldest o (fun _ s => answerOk s (oldestBytes s)) s)

/-- READ LOG at its owner (R139). -/
def readLogAnswer (sequence : BitVec 32) (_arrival : Nat) (s : State) : Answer :=
  match s.dl.held.find? (fun e => e.sequence == sequence.toNat) with
  | none => answerRefused s .range
  | some e => answerOk s (bytes2 s.dl.held.length ++ e.bytes)

/-- READ LOG (R139). -/
def execReadLog (o : OfficeFrame) (sequence : BitVec 32) (s : State) : Host.Outcome State Fault Refusal :=
  .next (officeCommand .readLog o (readLogAnswer sequence) s)

/-- The entries held after an acknowledgement of sequences up to `n` (R140). -/
def acknowledged (n : Nat) (held : List LogEntry) : List LogEntry := held.dropWhile (fun e => decide (e.sequence ≤ n))

/-- ACK LOG at its owner (R140). -/
def ackLogAnswer (n : Nat) (_arrival : Nat) (s : State) : Answer :=
  if s.dl.nextSequence ≤ n then answerRefused s .range
  else
    let left := acknowledged n s.dl.held
    answerOk { s with dl := { s.dl with held := left } }
      (bytes2 (s.dl.held.length - left.length) ++ bytes2 left.length)

/-- ACK LOG (R140). -/
def execAckLog (o : OfficeFrame) (sequence : BitVec 32) (s : State) : Host.Outcome State Fault Refusal :=
  .next (officeCommand .ackLog o (ackLogAnswer sequence.toNat) s)

/-- What LOG STATUS gives (R141). -/
def logStatusBytes (s : State) : List Byte :=
  bytes2 s.dl.held.length ++ bytesSequence (s.dl.held.head?.map LogEntry.sequence)
    ++ bytesSequence (s.dl.held.getLast?.map LogEntry.sequence) ++ bytes4 s.dl.nextSequence ++ bytes2 s.dl.level
    ++ byteOfBool s.logFull

/-- LOG STATUS (R141). -/
def execLogStatus (o : OfficeFrame) (s : State) : Host.Outcome State Fault Refusal :=
  .next (officeCommand .logStatus o (fun _ s => answerOk s (logStatusBytes s)) s)

/-- SET LOG WARNING at its owner (R142). -/
def setLogWarningAnswer (level : BitVec 16) (_arrival : Nat) (s : State) : Answer :=
  inConfig (fun s =>
    if within 1 1024 level.toNat then answerOk { s with dl := { s.dl with level := level.toNat } } []
    else answerRefused s .range) s

/-- SET LOG WARNING (R142). -/
def execSetLogWarning (o : OfficeFrame) (level : BitVec 16) (s : State) : Host.Outcome State Fault Refusal :=
  .next (officeCommand .setLogWarning o (setLogWarningAnswer level) s)

/-! ## Rights -/

/-- The ten cells of the office column, in the order of R147, one byte each (log 16). -/
def columnBytes (s : State) : List Byte := (List.range 10).flatMap (fun k => byteOfBool (hasMember s.rc.allowed k))

/-- The office column with the named groups written (R151). -/
def writtenColumn (groups : MemberSet 10) (allow : Bool) (column : MemberSet 10) : MemberSet 10 :=
  if allow then column ||| groups else column &&& ~~~groups

/-- SET RIGHTS at its owner (R151). -/
def setRightsAnswer (groups : BitVec 16) (value : Byte) (_arrival : Nat) (s : State) : Answer :=
  match allowOfCode value with
  | none => answerRefused s .range
  | some allow =>
    if groups = 0 ∨ groupsOk groups = false then answerRefused s .range
    else
      let s' := { s with rc := { s.rc with allowed := writtenColumn (groups.setWidth 10) allow s.rc.allowed } }
      answerOk s' (columnBytes s')

/-- SET RIGHTS (R151). -/
def execSetRights (o : OfficeFrame) (groups : BitVec 16) (value : Byte) (s : State) :
    Host.Outcome State Fault Refusal :=
  .next (officeCommand .setRights o (setRightsAnswer groups value) s)

/-- READ RIGHTS (R152): the column, and the SKEY level sampled for this command. -/
def execReadRights (o : OfficeFrame) (s : State) : Host.Outcome State Fault Refusal :=
  .next (officeCommand .readRights o (fun _ s => answerOk s (columnBytes s ++ byteOfBool o.skey)) s)

/-- The code of an operation: the command's, or the kind's (R199). -/
def Operation.code : Operation → Byte
  | .office c => officeCode c
  | .link k => (kindRow k).1

/-- A denial entry as READ DENIALS gives it (R157). R199 gives the reason of a denial entry no width: it travels as its code
in 1 byte, DESIGN CHOICE (log 16). The code of the group is log 11. -/
def Denial.bytes (d : Denial) : List Byte :=
  byte1 d.role.code ++ byteIndex d.node ++ [d.operation.code]
    ++ [(d.group.map (fun g => BitVec.ofNat 8 g.bit)).getD Config.absentGroup] ++ byte1 d.reason.code
    ++ [d.folderNamed.getD 0xFF] ++ bytes4 d.time

/-- READ DENIALS (R157): newest first. -/
def execReadDenials (o : OfficeFrame) (s : State) : Host.Outcome State Fault Refusal :=
  .next (officeCommand .readDenials o
    (fun _ s => answerOk s (byte1 s.rc.denials.length ++ s.rc.denials.reverse.flatMap Denial.bytes)) s)

/-! ## Rack link -/

/-- Is bay `n`, whose node a new enrolled set leaves out, held by a folder (R160)? -/
def leavesHeldBay (s : State) (enrolled : MemberSet 9) : Bool :=
  (List.finRange 8).any (fun b => !hasMember enrolled b.val && (s.folderOfBay b).isSome)

/-- A node's entry after a SET LINK (R160). -/
def linkedEntry (joinsOrLeaves : Bool) (limit : Nat) (e : NodeEntry) : NodeEntry :=
  if joinsOrLeaves then NodeEntry.start else { e with silence := min e.silence limit }

/-- The three link settings written, and the node table brought in line (R160). -/
def writeLink (period limit : Nat) (enrolled : MemberSet 9) (s : State) : State :=
  { s with
    rlc := { s.rlc with
      cyclePeriod := period
      silenceLimit := limit
      enrolled := enrolled
      nodes := tabulate 9 (fun n =>
        linkedEntry (hasMember s.rlc.enrolled n.val != hasMember enrolled n.val) limit (s.node n)) } }

/-- SET LINK at its owner (R160). -/
def setLinkAnswer (period : BitVec 16) (silence : Byte) (enrolled : BitVec 16) (_arrival : Nat) (s : State) : Answer :=
  inConfig (fun s =>
    if within 100 2000 period.toNat = false ∨ period.toNat % 50 ≠ 0 ∨ within 2 64 silence.toNat = false
        ∨ enrolledOk enrolled = false then answerRefused s .range
    else if leavesHeldBay s (enrolled.setWidth 9) then answerRefused s .inUse
    else answerOk (writeLink period.toNat silence.toNat (enrolled.setWidth 9) s) []) s

/-- SET LINK (R160). -/
def execSetLink (o : OfficeFrame) (period : BitVec 16) (silence : Byte) (enrolled : BitVec 16) (s : State) :
    Host.Outcome State Fault Refusal :=
  .next (officeCommand .setLink o (setLinkAnswer period silence enrolled) s)

/-- READMIT NODE at its owner (R167). -/
def readmitNodeAnswer (node : Byte) (_arrival : Nat) (s : State) : Answer :=
  match indexOf 9 node with
  | none => answerRefused s .range
  | some n => answerOk (s.setNode n NodeEntry.start) (byte1 (s.node n).state.code)

/-- READMIT NODE (R167). -/
def execReadmitNode (o : OfficeFrame) (node : Byte) (s : State) : Host.Outcome State Fault Refusal :=
  .next (officeCommand .readmitNode o (readmitNodeAnswer node) s)

def NodeEntry.bytes (e : NodeEntry) : List Byte :=
  byte1 e.state.code ++ byte1 e.faults ++ byte1 e.silence ++ bytes4OrAbsent e.lastGood

/-- What READ LINK gives (R173). -/
def linkBytes (s : State) : List Byte :=
  bytes2 s.rlc.cyclePeriod ++ byte1 s.rlc.silenceLimit ++ bytes2 s.rlc.enrolled.toNat ++ [s.rlc.cycle]
    ++ byte1 s.rlc.queue.length ++ byte1 s.rlc.reserved ++ byte1 s.owedStops.length
    ++ s.rlc.nodes.toList.flatMap NodeEntry.bytes

/-- READ LINK (R173). -/
def execReadLink (o : OfficeFrame) (s : State) : Host.Outcome State Fault Refusal :=
  .next (officeCommand .readLink o (fun _ s => answerOk s (linkBytes s)) s)

end Sys2Proof.Machine
end

