-- ==== Sys2Proof/Machine/Dispatch.lean ====
section
/-! DEFINITION. One arm per command, each one call of its meaning. -/

namespace Sys2Proof.Machine

def exec (i : Instr) (s : State) : Host.Outcome State Fault Refusal :=
  match i with
  | .openAccount o card profile endorsements expiry => Sys2Proof.Machine.execOpenAccount o card profile endorsements expiry s
  | .editAccount o index card profile endorsements expiry => Sys2Proof.Machine.execEditAccount o index card profile endorsements expiry s
  | .suspendAccount o index => Sys2Proof.Machine.execSuspendAccount o index s
  | .resumeAccount o index => Sys2Proof.Machine.execResumeAccount o index s
  | .closeAccount o index => Sys2Proof.Machine.execCloseAccount o index s
  | .setStatus o index status time => Sys2Proof.Machine.execSetStatus o index status time s
  | .clearLate o index => Sys2Proof.Machine.execClearLate o index s
  | .readAccount o index => Sys2Proof.Machine.execReadAccount o index s
  | .findCard o card => Sys2Proof.Machine.execFindCard o card s
  | .setProfile o letter dMax wMax bMax brkMin rMin cMax warnLead => Sys2Proof.Machine.execSetProfile o letter dMax wMax bMax brkMin rMin cMax warnLead s
  | .cancelPendingProfile o letter => Sys2Proof.Machine.execCancelPendingProfile o letter s
  | .readProfile o letter => Sys2Proof.Machine.execReadProfile o letter s
  | .readAllowance o index => Sys2Proof.Machine.execReadAllowance o index s
  | .hoursCheck o folder => Sys2Proof.Machine.execHoursCheck o folder s
  | .setTime o value offset => Sys2Proof.Machine.execSetTime o value offset s
  | .adjustTime o seconds => Sys2Proof.Machine.execAdjustTime o seconds s
  | .readTime o => Sys2Proof.Machine.execReadTime o s
  | .readAlarms o position => Sys2Proof.Machine.execReadAlarms o position s
  | .createFolder o tanker primary second drive duty count capacities => Sys2Proof.Machine.execCreateFolder o tanker primary second drive duty count capacities s
  | .setCompartment o folder compartment capacity substance declared => Sys2Proof.Machine.execSetCompartment o folder compartment capacity substance declared s
  | .setPapers o folder count lines => Sys2Proof.Machine.execSetPapers o folder count lines s
  | .setTrip o folder drive duty => Sys2Proof.Machine.execSetTrip o folder drive duty s
  | .submit o folder => Sys2Proof.Machine.execSubmit o folder s
  | .reopen o folder => Sys2Proof.Machine.execReopen o folder s
  | .assignBay o folder bay => Sys2Proof.Machine.execAssignBay o folder bay s
  | .unassign o folder => Sys2Proof.Machine.execUnassign o folder s
  | .amend o folder compartment declared => Sys2Proof.Machine.execAmend o folder compartment declared s
  | .overrideFolder o folder => Sys2Proof.Machine.execOverrideFolder o folder s
  | .voidFolder o folder => Sys2Proof.Machine.execVoidFolder o folder s
  | .finishLoading o folder => Sys2Proof.Machine.execFinishLoading o folder s
  | .readFolder o folder => Sys2Proof.Machine.execReadFolder o folder s
  | .readCompartment o folder compartment => Sys2Proof.Machine.execReadCompartment o folder compartment s
  | .nextFlaggedFolder o => Sys2Proof.Machine.execNextFlaggedFolder o s
  | .setSubstance o code group cls fill => Sys2Proof.Machine.execSetSubstance o code group cls fill s
  | .clearSubstance o code => Sys2Proof.Machine.execClearSubstance o code s
  | .readSubstance o code => Sys2Proof.Machine.execReadSubstance o code s
  | .listSubstances o position => Sys2Proof.Machine.execListSubstances o position s
  | .setMatrixPair o g h ruling => Sys2Proof.Machine.execSetMatrixPair o g h ruling s
  | .readMatrix o g => Sys2Proof.Machine.execReadMatrix o g s
  | .setThreshold o group quantity => Sys2Proof.Machine.execSetThreshold o group quantity s
  | .readThresholds o => Sys2Proof.Machine.execReadThresholds o s
  | .setMetering o arms settleMin settleBand settleMax passTenths passFloor amendTenths amendFloor => Sys2Proof.Machine.execSetMetering o arms settleMin settleBand settleMax passTenths passFloor amendTenths amendFloor s
  | .readMetering o => Sys2Proof.Machine.execReadMetering o s
  | .readLogOldest o => Sys2Proof.Machine.execReadLogOldest o s
  | .readLog o sequence => Sys2Proof.Machine.execReadLog o sequence s
  | .ackLog o sequence => Sys2Proof.Machine.execAckLog o sequence s
  | .logStatus o => Sys2Proof.Machine.execLogStatus o s
  | .setLogWarning o level => Sys2Proof.Machine.execSetLogWarning o level s
  | .setRights o groups value => Sys2Proof.Machine.execSetRights o groups value s
  | .readRights o => Sys2Proof.Machine.execReadRights o s
  | .readDenials o => Sys2Proof.Machine.execReadDenials o s
  | .setLink o period silence enrolled => Sys2Proof.Machine.execSetLink o period silence enrolled s
  | .readmitNode o node => Sys2Proof.Machine.execReadmitNode o node s
  | .readLink o => Sys2Proof.Machine.execReadLink o s
  | .readReply o => Sys2Proof.Machine.execReadReply o s
  | .ackAttention o flags => Sys2Proof.Machine.execAckAttention o flags s
  | .setEnables o mask value => Sys2Proof.Machine.execSetEnables o mask value s
  | .readAttention o => Sys2Proof.Machine.execReadAttention o s
  | .nextFlaggedAccount o => Sys2Proof.Machine.execNextFlaggedAccount o s
  | .requestMode o target => Sys2Proof.Machine.execRequestMode o target s
  | .readMode o => Sys2Proof.Machine.execReadMode o s
  | .clearAll o => Sys2Proof.Machine.execClearAll o s
  | .unknownCommandCode o code length => Sys2Proof.Machine.execUnknownCommandCode o code length s
  | .droppedFrame bytes bits => Sys2Proof.Machine.execDroppedFrame bytes bits s
  | .busyTransaction bytes => Sys2Proof.Machine.execBusyTransaction bytes s
  | .card l tanker number => Sys2Proof.Machine.execCard l tanker number s
  | .start l folder compartment => Sys2Proof.Machine.execStart l folder compartment s
  | .total l folder compartment litres flowing => Sys2Proof.Machine.execTotal l folder compartment litres flowing s
  | .endCompartment l folder compartment => Sys2Proof.Machine.execEndCompartment l folder compartment s
  | .doneLoading l folder => Sys2Proof.Machine.execDoneLoading l folder s
  | .entry l number => Sys2Proof.Machine.execEntry l number s
  | .release l folder placards => Sys2Proof.Machine.execRelease l folder placards s
  | .exit l folder => Sys2Proof.Machine.execExit l folder s
  | .idle l => Sys2Proof.Machine.execIdle l s
  | .malformedFrame node moment body => Sys2Proof.Machine.execMalformedFrame node moment body s
  | .damagedFrame node => Sys2Proof.Machine.execDamagedFrame node s
  | .emptySlot node => Sys2Proof.Machine.execEmptySlot node s
  | .beacon => Sys2Proof.Machine.execBeacon s
  | .minuteBoundary => Sys2Proof.Machine.execMinuteBoundary s
  | .dayBoundary => Sys2Proof.Machine.execDayBoundary s
  | .coldStart => Sys2Proof.Machine.execColdStart s
  | .warmStart cause => Sys2Proof.Machine.execWarmStart cause s
  | .resetAsserted => Sys2Proof.Machine.execResetAsserted s
  | .powerFail => Sys2Proof.Machine.execPowerFail s
  | .clockSecondCount => Sys2Proof.Machine.execClockSecondCount s

end Sys2Proof.Machine
end

