-- ==== Sys2Proof/Safety.lean ====
section
/-! DEFINITION. What the spec says always holds of the records, as predicates on State, and the words the claims are
stated in: when an office command is admitted and how it is answered, what recomputes, the day's work and a time jump do,
when a frame is served and how it is replied to, and the plan check said as its tests in order and as a condition on the
plan. -/

namespace Sys2Proof.Machine

/-! ## Invariants of the tables -/

/-- Both copies of a profile are in range, and agree while no edit is pending (R32, R33). -/
structure LimitProfile.Ok (x : LimitProfile) : Prop where
  active : x.active.inRange = true
  pendingCopy : x.pendingCopy.inRange = true
  settled : x.pendingValid = false → x.pendingCopy = x.active

/-- An entry of the substance table is in range (R87). -/
structure Substance.Ok (e : Substance) : Prop where
  code : 1 ≤ e.code ∧ e.code ≤ 65535
  fill : 500 ≤ e.fill ∧ e.fill ≤ 1000

/-- Every table and setting holds what its rule allows: profiles (R33), metering settings (R107), substances in strict
code order (R87), the matrix symmetric with its fixed cells (R93), thresholds (R97), the log warning level (R135), the
link settings (R160), the day offset (R44). -/
structure State.TablesOk (s : State) : Prop where
  profiles : ∀ p, (s.profile p).Ok
  metering : s.mr.inRange = true
  codeOrder : s.gcu.substances.Pairwise (fun x y => x.code < y.code)
  substances : ∀ e ∈ s.gcu.substances, e.Ok
  substanceCount : s.gcu.substances.length ≤ 128
  symmetric : ∀ g h, s.cell g h = s.cell h g
  fixedCells : ∀ g h : Fin 16, g = h ∨ g = 0 ∨ h = 0 → s.cell g h = .ok
  thresholds : ∀ k, s.threshold k ≤ 60000
  logLevel : 1 ≤ s.dl.level ∧ s.dl.level ≤ 1024
  cyclePeriod : 100 ≤ s.rlc.cyclePeriod ∧ s.rlc.cyclePeriod ≤ 2000 ∧ s.rlc.cyclePeriod % 50 = 0
  silenceLimit : 2 ≤ s.rlc.silenceLimit ∧ s.rlc.silenceLimit ≤ 64
  dayOffset : s.tc.dayOffset ≤ 1439

/-! ## Invariants of the clock and of the hours -/

/-- The clock is never below the high-water time, which covers every status since and every log time (R44, R46). -/
structure State.ClockOk (s : State) : Prop where
  ceiling : s.tc.clock ≤ maxClock
  highWater : s.tc.highWater ≤ s.tc.clock
  since : ∀ i, (s.account i).state ≠ .free → (s.account i).since ≤ s.tc.highWater
  logTimes : ∀ e ∈ s.dl.held, e.time ≤ s.tc.highWater

/-- The stored hours of an account stay in their ranges (R1, R15). -/
structure Account.HoursOk (a : Account) : Prop where
  shiftDrive : a.shiftDrive ≤ 65535
  driveSinceBreak : a.driveSinceBreak ≤ 65535
  buckets : ∀ k : Fin 8, a.buckets[k].drive ≤ a.buckets[k].duty ∧ a.buckets[k].duty ≤ 1440

def State.HoursOk (s : State) : Prop := ∀ i, (s.account i).HoursOk

/-! ## Invariants of accounts, alarms, folders and mode -/

/-- A FREE record holds the FREE values (R3); every other account holds a card, and no two hold the same (R4). -/
structure State.AccountsOk (s : State) : Prop where
  free : ∀ i, (s.account i).state = .free → s.account i = Account.free
  card : ∀ i, (s.account i).state ≠ .free → ∃ n, n ≠ 0 ∧ (s.account i).card = some n
  distinct : ∀ i j, (s.account i).state ≠ .free → (s.account j).state ≠ .free →
    (s.account i).card = (s.account j).card → i = j

/-- The Limit Alarm List stands in order, with at most one entry an account, each of an account in DUTY or DRIVE
(R54). -/
structure State.AlarmsOk (s : State) : Prop where
  ordered : s.hu.alarms.Pairwise (fun e x => e.before x = true)
  single : s.hu.alarms.Pairwise (fun e x => e.account ≠ x.account)
  working : ∀ e ∈ s.hu.alarms, (s.account e.account).state ≠ .free ∧ (s.account e.account).status ≠ .rest

/-- A FREE folder holds the FREE values (R64); a folder holds 1 to 6 compartments (R62); drivers and live folders name
each other (R65); a folder has a bay exactly when it is ASSIGNED or LOADING, and a bay has at most one folder (R71); no
more compartments run than the arms setting allows, none outside LOADING and none outside RUN (R107, R109). -/
structure State.FoldersOk (s : State) : Prop where
  free : ∀ f, (s.folder f).state = .free → s.folder f = Folder.free (s.folder f).compartments
  length : ∀ f, 1 ≤ (s.folder f).compartments.length ∧ (s.folder f).compartments.length ≤ 6
  crew : ∀ f, (s.folder f).second ≠ some (s.folder f).primary
  named : ∀ f, (s.folder f).state ≠ .free → ∀ i ∈ (s.folder f).drivers, (s.account i).liveFolder = some f
  naming : ∀ i f, (s.account i).liveFolder = some f → (s.folder f).state ≠ .free ∧ i ∈ (s.folder f).drivers
  bay : ∀ f, (s.folder f).bay.isSome ↔ (s.folder f).state = .assigned ∨ (s.folder f).state = .loading
  oneFolder : ∀ f g b, (s.folder f).bay = some b → (s.folder g).bay = some b → f = g
  arms : ∀ f, (s.folder f).running ≤ s.mr.arms
  idle : ∀ f, (s.folder f).state ≠ .loading ∨ s.mc.mode ≠ .run → (s.folder f).running = 0

/-- A pending target stands only in RUN, names another mode, and waits for a LOADING folder (R187, R188, R191). -/
def State.ModeOk (s : State) : Prop :=
  ∀ m, s.mc.pendingTarget = some m → s.mc.mode = .run ∧ m ≠ .run ∧ s.loadingCount ≠ 0

/-- A frame that arrived in RUN and waits for the end of its slot after the mode has left RUN meets no LOADING folder: the
mode leaves RUN only when no folder is LOADING (R188, R191), and a slot ends before another CARD is served (R169). -/
def State.SlotOk (s : State) : Prop :=
  ∀ a, s.underway.frame = some a → a.mode = .run → s.mc.mode ≠ .run → ∀ f, (s.folder f).state ≠ .loading

/-- Accounts, alarms, folders, mode and the frame under way together. -/
structure State.RecordsOk (s : State) : Prop where
  accounts : s.AccountsOk
  alarms : s.AlarmsOk
  folders : s.FoldersOk
  mode : s.ModeOk
  slot : s.SlotOk

/-! ## Invariants of the link, the log and the denials -/

/-- A node's fault count and state (R164), and its silence count (R162). -/
structure NodeEntry.Ok (limit : Nat) (e : NodeEntry) : Prop where
  faults : e.faults ≤ 255
  isolated : e.state = .isolated ↔ e.faults = 255
  silence : e.silence ≤ limit

/-- Node entries in range, those of nodes not enrolled at their start values (R162, R164); the reply queue in class
order and within 16, no place reserved between frames (R170). -/
structure State.LinkOk (s : State) : Prop where
  nodes : ∀ n, (s.node n).Ok s.rlc.silenceLimit
  notEnrolled : ∀ n : Fin 9, hasMember s.rlc.enrolled n.val = false → s.node n = NodeEntry.start
  classOrder : s.rlc.queue.Pairwise (fun x y => x.cls.rank ≤ y.cls.rank)
  room : s.rlc.queue.length ≤ 16
  reserved : s.rlc.reserved = 0

/-- At most 1024 entries, consecutive in sequence, the newest one less than the next sequence number (R135); at most 8
denials, none of a supervisor (R157). -/
structure State.LogOk (s : State) : Prop where
  count : s.dl.held.length ≤ 1024
  next : 1 ≤ s.dl.nextSequence ∧ s.dl.nextSequence ≤ maxSequence
  consecutive : ∀ k (h : k < s.dl.held.length), s.dl.held[k].sequence + (s.dl.held.length - k) = s.dl.nextSequence
  denials : s.rc.denials.length ≤ 8
  neverSupervisor : ∀ d ∈ s.rc.denials, d.role ≠ .supervisor

/-! ## Office commands -/

/-- An office command is handled: the part works, and the command was taken at the rise of OSEL before, or comes whole to an
idle port (R176, R177, R197). -/
def State.handles (s : State) (o : OfficeFrame) : Prop :=
  s.running = true ∧
    ((o.moment = .handled ∧ s.underway.risen.isSome = true) ∨
      (o.moment = .atOnce ∧ s.underway.risen.isSome = false ∧ s.underway.refused = false))

/-- An office command is handled and passes the Rights Check (R149). -/
def State.admits (s : State) (o : OfficeFrame) (cls : CommandClass) : Prop :=
  s.handles o ∧ officePasses s o cls = true

/-- The state as a command's owner meets it: its transaction has shifted out the summary byte and zero bytes, and is
under way no longer (R178). -/
def seen (c : OfficeCommand) (o : OfficeFrame) (s : State) : State :=
  { s with
    out := { s.out with office := (s.summaryShown :: zeroBytes (3 + officeLength c + o.extra)).take (3 + officeLength c + o.extra) }
    underway := { s.underway with summary := none, risen := none } }

/-- Records `t` answered: the reply buffer holds the command's tag and code, a result (absent is OK) and data (R179). -/
def replyHeld (c : OfficeCommand) (o : OfficeFrame) (result : Option Reason) (data : List Byte) (t : State) : State :=
  { t with op := { t.op with reply := some ⟨o.tag, officeCode c, result, data⟩ } }

/-- The command is answered OK with data, leaving records `t`. -/
def answersOk (c : OfficeCommand) (o : OfficeFrame) (data : List Byte) (t : State) :
    Host.Outcome State Fault Refusal :=
  .next (replyHeld c o none data t)

/-- The command is refused for a reason, the records as they were. -/
def refusesWith (c : OfficeCommand) (o : OfficeFrame) (r : Reason) (s : State) : Host.Outcome State Fault Refusal :=
  .next (replyHeld c o (some r) [] (seen c o s))

/-- The command is one of the office commands, and this is its frame and code. -/
def isOffice (i : Instr) (o : OfficeFrame) (c : OfficeCommand) : Prop :=
  ∃ args, officeParts i = some (o, c, args)

/-- The class an office command has in a state: by its code, and for SET TIME by its arguments (R148, R150). -/
def classIn (s : State) : Instr → CommandClass
  | .setTime _ value offset => setTimeClass s value.toNat offset.toNat
  | i => ((officeParts i).map (fun p => officeClass p.2.1)).getD .read

/-- The command makes a cold start (R195): a power-on with BKOK low and RESET high, the return of RESET that such a
power-on waits for (R197), or a taken CLEAR ALL (R196). -/
def coldStartsAt (i : Instr) (s : State) : Prop :=
  match i with
  | .coldStart => s.pins.resetLow = false
  | .warmStart .reset => s.pins.powered = true ∧ s.pins.startOwed = some .cold
  | .clearAll o => s.admits o .supervisorOnly ∧ s.mc.mode = .config
  | _ => False

/-! ## Recomputes, the day's work and time jumps -/

/-- The entries account `i` has after a recompute at minute `m` (R55): at most one. -/
def placedEntries (m : Nat) (i : Fin 64) (s : State) : List AlarmEntry :=
  let a := s.account i
  let l := (s.profile a.profile).active
  let run := (s.figures i m).runAllowance
  match a.status, a.shiftStart with
  | .drive, _ =>
    if l.warnLead < run then [⟨i, .warn, m + run - l.warnLead⟩] else if 0 < run then [⟨i, .limit, m + run⟩] else []
  | .duty, some start => if m < start + l.wMax then [⟨i, .window, start + l.wMax⟩] else []
  | _, _ => []

/-- The flag a recompute of account `i` at minute `m` raises: OVER_RUN or OVER_WINDOW where the limit is already reached
(R55). -/
def limitReached (m : Nat) (i : Fin 64) (s : State) (k : AlarmFlag) : Prop :=
  let a := s.account i
  (k = .overRun ∧ a.status = .drive ∧ (s.figures i m).runAllowance = 0) ∨
    (k = .overWindow ∧ a.status = .duty ∧ ∃ start ∈ a.shiftStart, start + (s.profile a.profile).active.wMax ≤ m)

/-- From `s` to `t` the accounts `among` are recomputed at the present minute (R55), EXPIRED is raised on the accounts
`lapsed` (R19), and nothing else happens: a flag newly raised sets unread and ALARM (R18). -/
structure Recomputed (among lapsed : Fin 64 → Prop) (s t : State) : Prop where
  placed : ∀ i, among i → t.hu.alarms.filter (fun e => e.account == i) = placedEntries t.minute i t
  others : ∀ i, ¬among i →
    t.hu.alarms.filter (fun e => e.account == i) = s.hu.alarms.filter (fun e => e.account == i)
  flags : ∀ i k, (t.account i).hasAlarm k = true ↔
    (s.account i).hasAlarm k = true ∨ (among i ∧ limitReached t.minute i t k) ∨ (k = .expired ∧ lapsed i)
  unread : ∀ i, (t.account i).unread = true ↔ (s.account i).unread = true ∨ (t.account i).alarms ≠ (s.account i).alarms
  records : ∀ i, { t.account i with alarms := (s.account i).alarms, unread := (s.account i).unread } = s.account i
  attention : ∀ a : AttentionFlag, hasMember t.op.flags a.bit = true ↔
    hasMember s.op.flags a.bit = true ∨ (a = .alarm ∧ ∃ i, t.account i ≠ s.account i)
  kept : { t with
    accounts := s.accounts, hu := { t.hu with alarms := s.hu.alarms }, op := { t.op with flags := s.op.flags } } = s

/-- Every ACTIVE or SUSPENDED account is recomputed (R52, R60), and no other. -/
def AllRecomputed (s t : State) : Prop := Recomputed (fun i => (s.account i).state ≠ .free) (fun _ => False) s t

/-- A profile after the transfer at a day boundary (R37). -/
def LimitProfile.turned (x : LimitProfile) : LimitProfile :=
  if x.pendingValid then ⟨x.pendingCopy, x.pendingCopy, false⟩ else x

/-- The day's work of R49 is made from `s` to `t`: profiles transferred, EXPIRED raised on every ACTIVE account whose
expiry is earlier than today, every ACTIVE or SUSPENDED account recomputed, the treated day written. -/
def DayWorked (s t : State) : Prop :=
  Recomputed (fun i => (s.account i).state ≠ .free)
    (fun i => (s.account i).state = .active ∧ (s.account i).expiry < s.today)
    { s with
      hu := { s.hu with profileA := s.hu.profileA.turned, profileB := s.hu.profileB.turned }
      tc := { s.tc with treatedDay := s.today } } t

/-- The day check from `s` to `t`: the day's work where today is not the treated day, nothing where it is (R49). -/
def DayChecked (s t : State) : Prop :=
  (s.today ≠ s.tc.treatedDay → DayWorked s t) ∧ (s.today = s.tc.treatedDay → t = s)

/-- A time jump from the terminal minute `before` to that of `s`, whose clock is written, ends in `t` (R52): one firing
pass where the minute has risen, then the day's work where the day has changed, and otherwise, where the minute has
changed, the recompute of every account. -/
def JumpTaken (before : Nat) (s t : State) : Prop :=
  let fired :=
    if before < s.minute then firingPass s.minute { s with tc := { s.tc with minuteDue := false } } else s
  (s.today ≠ s.tc.treatedDay → DayWorked fired t) ∧
    (s.today = s.tc.treatedDay → s.minute ≠ before → AllRecomputed fired t) ∧
    (s.today = s.tc.treatedDay → s.minute = before → t = fired)

/-! ## Link frames -/

/-- A frame of node `n` that is not IDLE is taken at the end of its slot: the part works, the slot is not ignored, the
mode was RUN at the frame's arrival and the queue has a place (R168). -/
def State.servesFrame (s : State) (n : Fin 9) (m : SlotMoment) : Prop :=
  m = .slotEnd ∧ s.running = true ∧ s.listens n = true ∧ s.arrivalMode n = .run ∧
    s.rlc.queue.length + s.rlc.reserved < 16

/-- The state after a good frame's health (R163, R166): a good frame never loses a bay. No frame waits any more. -/
def heard (n : Fin 9) (s : State) : State :=
  let e := goodFrameEntry (s.frameArrival n) (s.node n)
  let t := s.slotClosed.setNode n e
  if e.state = .warning ∧ (s.node n).state ≠ .warning then setAttention .node t else t

/-- The state in which a taken frame is served: health, the taken set, and a place reserved (R169). -/
def frameTaken (n : Fin 9) (s : State) : State :=
  let t := heard n s
  { t with rlc := { t.rlc with taken := withMember t.rlc.taken n.val, reserved := t.rlc.reserved + 1 } }

/-- The request is replied to, leaving records `t`: the reply takes the reserved place (R170). -/
def repliesWith (k : MessageKind) (l : LinkFrame) (body : ReplyBody) (argument : Argument) (t : State) :
    Host.Outcome State Fault Refusal :=
  .next { t with
    rlc := { t.rlc with
      queue := joinQueue ⟨l.node, l.tag, body, argument, replyClass k body⟩ t.rlc.queue
      reserved := t.rlc.reserved - 1 } }

/-- The request is served without a reply, leaving records `t`: the reserved place is given up (R170). -/
def servesSilently (t : State) : Host.Outcome State Fault Refusal :=
  .next { t with rlc := { t.rlc with reserved := t.rlc.reserved - 1 } }

/-- A taken request is denied for a reason: the entry of its denial, ACCESS, and a DENY in class 2 for a START and class 3
for every other kind; nothing else (R156, R157). -/
def deniesRequest (k : MessageKind) (l : LinkFrame) (role : Role) (reason : Reason) (argument : Argument)
    (named : Option Byte) (s : State) : Host.Outcome State Fault Refusal :=
  let u := frameTaken l.node s
  .next { u with
    op := { u.op with flags := withMember u.op.flags AttentionFlag.access.bit }
    rc := { u.rc with denials :=
      (if u.rc.denials.length < 8 then u.rc.denials else u.rc.denials.drop (u.rc.denials.length - 7)) ++
        [⟨role, some l.node, .link k, none, reason, named, s.frameArrival l.node⟩] }
    rlc := { u.rlc with
      queue := joinQueue ⟨l.node, l.tag, .deny reason, argument, if k = .start then .two else .three⟩ u.rlc.queue
      reserved := u.rlc.reserved - 1 } }

/-- Bay `b`'s frame names its own folder `f`, which is LOADING (R108, R154). -/
def State.loadsAt (s : State) (l : LinkFrame) (b : Fin 8) (f : Fin 16) (number : Byte) : Prop :=
  bayOfNode l.node = some b ∧ s.folderOfBay b = some f ∧ number.toNat = f.val ∧ (s.folder f).state = .loading

/-! ## The plan check as a condition (R99 to R104) -/

/-- The lowest index at which a test fails. -/
def FirstAt (fails : Nat → Prop) (k : Nat) : Prop := fails k ∧ ∀ j, j < k → ¬fails j

/-- One test of the plan check: the indices at which it fails, its reason, and the mark of its index (R99, R199). -/
structure PlanTest where
  failsAt : Nat → Prop
  reason : Reason
  mark : Nat

/-- Compartment `k` is bad. -/
def Folder.badCompartment (x : Folder) (bad : Compartment → Prop) (k : Nat) : Prop := ∃ c ∈ x.compartments[k]?, bad c

/-- Papers line `k` is bad. -/
def Folder.badLine (x : Folder) (bad : PapersLine → Prop) (k : Nat) : Prop := ∃ p ∈ x.papers[k]?, bad p

/-- Papers line `k` clashes with an earlier one. -/
def Folder.laterLine (x : Folder) (clash : PapersLine → PapersLine → Prop) (k : Nat) : Prop :=
  ∃ q ∈ x.papers[k]?, ∃ p ∈ x.papers.take k, clash p q

/-- Steps 1 to 3 of the plan check, in their order (R100, R101): a code that is unknown, a declared quantity that does not
fit, and the five parts of the papers; marks 1 for a compartment, 0 for a line (R199). -/
def planTests (s : State) (x : Folder) : List PlanTest :=
  [⟨x.badCompartment (fun c => c.substance.isSome ∧ s.product c = none), .unknownSubstance, 1⟩,
    ⟨x.badCompartment (fun c => (c.substance = none ∧ c.declared ≠ 0) ∨
      ∃ e ∈ s.product c, c.declared = 0 ∨ c.capacity * e.fill / 1000 < c.declared), .fillLimit, 1⟩,
    ⟨x.badLine (fun p => s.substance p.code = none), .papers, 0⟩,
    ⟨x.laterLine (fun p q => p.code = q.code), .papers, 0⟩,
    ⟨x.laterLine (fun p q => ∃ k : Fin 8, hasMember p.compartments k.val ∧ hasMember q.compartments k.val), .papers, 0⟩,
    ⟨x.badLine (fun p => ∃ k : Fin 8, hasMember p.compartments k.val ∧
      ∀ c ∈ x.compartments[k.val]?, c.substance ≠ some p.code), .papers, 0⟩,
    ⟨fun k => x.badCompartment (fun c => c.substance.isSome ∧ ∀ p ∈ x.papers, hasMember p.compartments k = false) k,
      .papers, 1⟩]

/-- The pair of non-EMPTY compartments i and j, i below j, does not pass (R102). -/
def PairClashes (s : State) (x : Folder) (i j : Nat) : Prop :=
  i < j ∧ ∃ c ∈ x.compartments[i]?, ∃ d ∈ x.compartments[j]?, ∃ g ∈ s.product c, ∃ h ∈ s.product d,
    s.cell g.group h.group = .never ∨
      (s.cell g.group h.group = .apart ∧ ∀ k, k < j → i < k → ∀ e ∈ x.compartments[k]?, e.substance.isSome)

/-- The driver lacks an endorsement the plan asks for (R103). -/
def LacksEndorsement (s : State) (x : Folder) (i : Fin 64) : Prop :=
  ∃ c ∈ x.compartments, ∃ e ∈ s.product c, e.cls.val ≠ 0 ∧ hasMember (s.account i).endorsements e.cls.val = false

/-- The plan asks for an endorsement, and the driver's have expired at a day number (R103). -/
def EndorsementsLapsed (s : State) (x : Folder) (day : Nat) (i : Fin 64) : Prop :=
  (∃ c ∈ x.compartments, ∃ e ∈ s.product c, e.cls.val ≠ 0) ∧ (s.account i).expiry < day

/-- The declared quantities fit (R100). -/
def DeclaredFits (s : State) (x : Folder) : Prop :=
  ∀ c ∈ x.compartments,
    match c.substance with
    | none => c.declared = 0
    | some code => ∃ e, s.substance code = some e ∧ 1 ≤ c.declared ∧ c.declared ≤ c.capacity * e.fill / 1000

/-- The papers cover the plan (R101): known and distinct codes, disjoint sets naming only compartments that hold the
line's code, and every non-EMPTY compartment named. -/
structure PapersFit (s : State) (x : Folder) : Prop where
  known : ∀ p ∈ x.papers, (s.substance p.code).isSome
  distinct : x.papers.Pairwise (fun p q => p.code ≠ q.code)
  disjoint : x.papers.Pairwise (fun p q => p.compartments &&& q.compartments = 0)
  holds : ∀ p ∈ x.papers, ∀ k, hasMember p.compartments k = true →
    ∃ c, x.compartments[k]? = some c ∧ c.substance = some p.code
  covers : ∀ k c, x.compartments[k]? = some c → c.substance.isSome → ∃ p ∈ x.papers, hasMember p.compartments k = true

/-- Every pair of non-EMPTY compartments passes the matrix (R102). -/
def PairsFit (s : State) (x : Folder) : Prop :=
  ∀ (i j : Nat) (c d : Compartment) (g h : Substance), i < j → x.compartments[i]? = some c → x.compartments[j]? = some d →
    s.product c = some g → s.product d = some h →
    s.cell g.group h.group ≠ .never ∧
    (s.cell g.group h.group = .apart →
      ∃ (k : Nat) (e : Compartment), i < k ∧ k < j ∧ x.compartments[k]? = some e ∧ e.substance = none)

/-- A driver holds every class the plan asks for, and where it asks for one his endorsements have not expired (R103,
R104). -/
def DriverFits (s : State) (x : Folder) (day : Nat) (i : Fin 64) : Prop :=
  ∀ c ∈ x.compartments, ∀ e, s.product c = some e → e.cls.val ≠ 0 →
    hasMember (s.account i).endorsements e.cls.val = true ∧ day ≤ (s.account i).expiry

/-- The plan is sound at a day number. -/
structure PlanFits (s : State) (x : Folder) (day : Nat) : Prop where
  declared : DeclaredFits s x
  papers : PapersFit s x
  pairs : PairsFit s x
  drivers : ∀ i ∈ x.drivers, DriverFits s x day i

end Sys2Proof.Machine
end

