-- ==== Sys2Proof/Certificates/Slice0/Obligations.lean ====
section
/-! DEFINITION. The statements for the provers, each from the numbered rules its docstring names. `seen c o s` is the state
after the bytes shifted out by the transaction itself (R178); `frameTaken n s` is the state after a frame's health and
taking (R169). A next state is written out from them, so a statement says what stays as well as what changes. -/

open Sys2Proof Sys2Proof.Machine

/-! ## The queue -/

/-- A step takes the command at the front of the queue and runs it on the rest (log 5). -/
def Obligations.StepTakesTheFrontCommand : Prop :=
  ∀ (c : Instr) (rest : List Instr) (s : State),
    step { s with pending := c :: rest } = exec c { s with pending := rest }

/-- Every step of every state answers a next state and takes one command off the queue; on an empty queue the part idles
(log 5). The part has no fault: every event of the spec has an outcome in the records. -/
def Obligations.EveryStepAnswersANextState : Prop :=
  ∀ s : State, ∃ t, step s = .next t ∧ t.pending = s.pending.tail ∧ (s.pending = [] → t = s)

/-! ## The ports' bytes -/

/-- The bytes of every office command's frame, code, tag, argument length and arguments (R175, R199), are read back as
that command, whatever whole bytes and cut bits follow; the arguments have the length its code takes. Which argument
bytes are which field is stated for four commands alone; for the others of more than one field the order is that of
the owning rule, the model's choice (log 28, DESIGN CHOICE). -/
def Obligations.OfficeFramesDecodeToTheirCommands : Prop :=
  ∀ (i : Instr) (o : OfficeFrame) (c : OfficeCommand) (args after : List Byte) (bits : Fin 8),
    officeParts i = some (o, c, args) → after.length = o.extra →
    args.length = officeLength c ∧
    decodeTransaction o.skey o.moment
      ([officeCode c, o.tag, BitVec.ofNat 8 (officeLength c)] ++ args ++ after) bits = i

/-- The bytes of every request's frame, kind, tag, fields and check word (R161, R199, R200), are read back as that request
in the slot of its node; cut off, the same bytes are a damaged frame. -/
def Obligations.LinkFramesDecodeToTheirRequests : Prop :=
  ∀ (i : Instr) (l : LinkFrame) (k : MessageKind) (fields : List Byte), linkParts i = some (l, k, fields) →
    let frame := withCheckWord ([(kindRow k).1, l.tag] ++ fields)
    frame.length = (kindRow k).2 ∧ decodeSlot l.node l.moment (.bytes frame true) = i ∧
      decodeSlot l.node l.moment (.bytes frame false) = .damagedFrame l.node

/-- Whatever bytes come over a port, they are read as a well-formed command: a dropped frame is incomplete (R175), a
command refused with FORMAT names no command (R177), a malformed frame has no kind's form (R161). -/
def Obligations.DecodedCommandsAreWellFormed : Prop :=
  (∀ skey moment bytes bits, (decodeTransaction skey moment bytes bits).wf = true) ∧
    (∀ node moment r, (decodeSlot node moment r).wf = true)

/-! ## The gates before the owners -/

/-- While RESET is low or VDD is off (R197; log 7), ATTN is released, LKDE is inactive, the clock counts, and a start,
a fall of RESET and a fall of VDD have their effect; every other command leaves every record as it is. A transaction
with VDD up shifts out all-ones bytes, and one whose OSEL falls while RESET is low goes on as one begun while the port
is busy, whatever RESET does before its OSEL rises (R176, R197; log 3). That a minute boundary out of turn counts the
second that brings it is the form of the clock events (log 2, DESIGN CHOICE), and that a record outside the backup
domain keeps its value while VDD is off is the model's choice (log 26, DESIGN CHOICE). -/
def Obligations.NothingIsTakenWhileNotRunning : Prop :=
  ∀ (i : Instr) (s t : State), s.running = false → exec i s = .next t →
    attnAsserted s = false ∧ s.lkdeAllows true = false ∧
    (match i with
      | .coldStart | .warmStart _ | .resetAsserted | .powerFail => True
      | .clockSecondCount =>
        t = { s with tc := { s.tc with clock := if s.tc.clock < maxClock then s.tc.clock + 1 else s.tc.clock } }
      | .minuteBoundary => { t with tc := { t.tc with clock := s.tc.clock } } = s
      | _ => { t with out := s.out, underway := { t.underway with refused := s.underway.refused } } = s ∧
        (s.pins.powered = false → t = s)) ∧
    (∀ o c args, officeParts i = some (o, c, args) → s.pins.powered = true →
      (o.moment = .oselFalls → t.underway.refused = true) ∧
      (o.moment = .oselRises ∨ o.moment = .atOnce → t.underway.refused = false ∧
        t.out.office = List.replicate (3 + officeLength c + o.extra) 0xFF))

/-- A denied office command is answered DENIED_ROLE with no data, adds its entry to the denial record, sets ACCESS and
does nothing else (R149, R150, R156, R157). A taken request of a kind its role may not send is denied with DENIED_ROLE, and
one that names another folder than its bay's with DENIED_WINDOW and the bay's folder as argument, if it holds one (R153,
R154, R156); each leaves its entry, ACCESS and its DENY only (`deniesRequest`). -/
def Obligations.DeniedCommandOnlyLeavesItsDenial : Prop :=
  (∀ (i : Instr) (o : OfficeFrame) (c : OfficeCommand) (s : State), isOffice i o c → s.handles o →
    officePasses s o (classIn s i) = false →
    o.skey = false ∧
    exec i s = .next
      (let u := seen c o s
       { u with
         op := { u.op with
           reply := some ⟨o.tag, officeCode c, some .deniedRole, []⟩
           flags := withMember u.op.flags AttentionFlag.access.bit }
         rc := { u.rc with denials :=
           (if u.rc.denials.length < 8 then u.rc.denials else u.rc.denials.drop (u.rc.denials.length - 7)) ++
             [⟨.office, none, .office c, (classIn s i).group, .deniedRole, none, s.officeArrival⟩] } })) ∧
  ∀ (i : Instr) (l : LinkFrame) (k : MessageKind) (fields : List Byte) (s : State), linkParts i = some (l, k, fields) →
    s.servesFrame l.node l.moment →
    (∀ b : Fin 8, bayOfNode l.node = some b →
      (k = .entry ∨ k = .release ∨ k = .exit → exec i s = deniesRequest k l (.bay b) .deniedRole .none none s) ∧
      (k = .start ∨ k = .total ∨ k = .ending ∨ k = .done → ∀ number rest, fields = number :: rest →
        ((∀ f, (s.folder f).bay ≠ some b) → exec i s = deniesRequest k l (.bay b) .deniedWindow .none (some number) s) ∧
        (∀ f, (s.folder f).bay = some b → (∀ g, g < f → (s.folder g).bay ≠ some b) → number.toNat ≠ f.val →
          exec i s = deniesRequest k l (.bay b) .deniedWindow (.folder f) (some number) s))) ∧
    (l.node = 8 → k = .card ∨ k = .start ∨ k = .total ∨ k = .ending ∨ k = .done →
      exec i s = deniesRequest k l .gate .deniedRole .none none s)

/-- An office command refused for any reason but a denial changes no record: only the reply buffer and the bytes shifted
out (each owner's rule; R177, R179). A taken request that its owner answers with DENY changes no record beside its node's
health, the taken set and the reply queue, nor does a RELEASE refused outside READY (R108, R127; each owner's rule). -/
def Obligations.RefusedCommandChangesNoRecord : Prop :=
  (∀ (i : Instr) (o : OfficeFrame) (c : OfficeCommand) (s t : State) (reply : OfficeReply) (r : Reason),
    isOffice i o c → c ≠ .readReply → s.handles o → exec i s = .next t → t.op.reply = some reply →
    reply.result = some r → r ≠ .deniedRole →
    t = { s with
      out := t.out, op := { s.op with reply := t.op.reply }
      underway := { s.underway with summary := none, risen := none } }) ∧
  ∀ (i : Instr) (l : LinkFrame) (k : MessageKind) (fields : List Byte) (s t : State) (body : ReplyBody)
    (argument : Argument) (cls : ReplyClass), linkParts i = some (l, k, fields) → s.servesFrame l.node l.moment →
    exec i s = .next t → t.rlc.queue = joinQueue ⟨l.node, l.tag, body, argument, cls⟩ s.rlc.queue →
    ((∃ r, body = .deny r ∧ r ≠ .deniedRole ∧ r ≠ .deniedWindow) ∨
      ((∃ set, body = .refuse set) ∧ argument ≠ .folderState .ready)) →
    t = (let u := frameTaken l.node s
      { u with rlc := { u.rlc with queue := t.rlc.queue, reserved := s.rlc.reserved } })

/-- Every taken command but READ REPLY replaces the reply buffer with its own reply, under its tag and code, and a reply
that is a refusal carries data only for SUBMIT (R69, R179); while it is shifted in, the part shifts out the summary byte
formed when OSEL fell, and zero bytes (R178; log 3). -/
def Obligations.TakenCommandIsAnsweredUnderItsTag : Prop :=
  ∀ (i : Instr) (o : OfficeFrame) (c : OfficeCommand) (s t : State),
    isOffice i o c → c ≠ .readReply → s.handles o → exec i s = .next t →
    t.out.office = s.summaryShown :: List.replicate (2 + officeLength c + o.extra) 0 ∧
    ∃ reply, t.op.reply = some reply ∧ reply.tag = o.tag ∧ reply.code = officeCode c ∧
      (reply.result ≠ none → c ≠ .submit → reply.data = [])

/-! ## Invariants -/

/-- Right after a cold start by power-on every invariant holds (R195, R198). -/
def Obligations.ColdStateMeetsTheInvariants : Prop :=
  State.reset.TablesOk ∧ State.reset.ClockOk ∧ State.reset.HoursOk ∧ State.reset.RecordsOk ∧ State.reset.LinkOk ∧
    State.reset.LogOk

/-- Every step keeps every table and setting within its rule (R33, R87, R93, R97, R107, R135, R160). -/
def Obligations.StepKeepsTheTables : Prop := ∀ s t : State, s.TablesOk → step s = .next t → t.TablesOk

/-- Every step keeps the clock at or above the high-water time and that time at or above every status since and log time
(R44, R46), and drive minutes at most duty minutes at most 1440 in every bucket (R15). -/
def Obligations.StepKeepsTheClockAndTheHours : Prop :=
  ∀ s t : State, step s = .next t → (s.ClockOk → t.ClockOk) ∧ (s.HoursOk → t.HoursOk)

/-- Every step keeps accounts, alarms, folders and mode together: one card one account (R4), the Limit Alarm List in
order with one entry an account (R54), live folders and drivers naming each other (R65, R79), a bay exactly while
ASSIGNED or LOADING and one folder a bay (R71), no more arms than the setting (R109), a pending target only in RUN with
a folder LOADING (R187, R191), and no folder LOADING outside RUN while a frame that arrived in RUN waits (R168, R169). -/
def Obligations.StepKeepsTheRecords : Prop := ∀ s t : State, s.RecordsOk → step s = .next t → t.RecordsOk

/-- Every step keeps the node table and the reply queue: ISOLATED exactly at fault count 255 (R164), silence within its
limit (R162), the queue in class order and within 16 (R170). That no place is reserved between events is read from the one
event of R169 with R170 (log 18, DEDUCED). -/
def Obligations.StepKeepsTheLink : Prop := ∀ s t : State, s.LinkOk → step s = .next t → t.LinkOk

/-- Every step keeps the log at 1024 consecutive entries at most, ending one below the next sequence number (R135), and
the denial record at 8 at most, SUPERVISOR never denied (R157). -/
def Obligations.StepKeepsTheLog : Prop := ∀ s t : State, s.LogOk → step s = .next t → t.LogOk

/-- Neither the clock nor the high-water time decreases, but at a cold start (R46). -/
def Obligations.ClockNeverGoesBack : Prop :=
  ∀ (i : Instr) (s t : State), exec i s = .next t → ¬coldStartsAt i s →
    s.tc.clock ≤ t.tc.clock ∧ s.tc.highWater ≤ t.tc.highWater

/-- R111: while a folder is not FREE the metered total of a compartment never decreases. Metered is written in three places
alone: CREATE FOLDER gives it 0 as the folder leaves FREE, an accepted TOTAL writes its total, which is at least metered,
and a cold start gives it 0; every other step leaves every compartment's metered total as it was. -/
def Obligations.MeteredTotalNeverDecreases : Prop :=
  ∀ (i : Instr) (s t : State) (f : Fin 16), exec i s = .next t →
    (coldStartsAt i s → ∀ d ∈ (t.folder f).compartments, d.metered = 0) ∧
    (¬coldStartsAt i s → (s.folder f).state = .free → (t.folder f).state ≠ .free →
      (∃ o tanker primary second drive duty count slots,
        i = .createFolder o tanker primary second drive duty count slots) ∧
      ∀ d ∈ (t.folder f).compartments, d.metered = 0) ∧
    (¬coldStartsAt i s → ((s.folder f).state = .free → (t.folder f).state = .free) →
      (t.folder f).compartments.length = (s.folder f).compartments.length ∧
      ∀ (k : Nat) (c d : Compartment), (s.folder f).compartments[k]? = some c → (t.folder f).compartments[k]? = some d →
        c.metered ≤ d.metered ∧
        (d.metered ≠ c.metered → (s.folder f).state = .loading ∧ ∃ l folder compartment litres flowing,
          i = .total l folder compartment litres flowing ∧ folder.toNat = f.val ∧ compartment.toNat = k ∧
          d.metered = litres.toNat)) ∧
    (∀ (l : LinkFrame) (folder compartment : Byte) (litres : BitVec 16) (flowing : Byte) (b : Fin 8) (c : Compartment),
      i = .total l folder compartment litres flowing → s.servesFrame l.node l.moment → s.loadsAt l b f folder →
      flowing = 0 ∨ flowing = 1 → (s.folder f).compartments[compartment.toNat]? = some c → c.inProgress = true →
      c.metered ≤ litres.toNat →
      ∃ d, (t.folder f).compartments[compartment.toNat]? = some d ∧ d.metered = litres.toNat)

/-- The log is written by an append at its newest end and an acknowledgement at its oldest end, never rewritten; the
sequence number rises by exactly one with an entry, and an entry comes of a RELEASE or a VOID alone; only a cold start
empties it otherwise (R137, R138, R140). -/
def Obligations.LogGrowsOnlyByReleaseAndVoid : Prop :=
  ∀ (i : Instr) (s t : State), exec i s = .next t → ¬coldStartsAt i s →
    (t.dl.nextSequence = s.dl.nextSequence ∧
      ((∀ o n, i ≠ .ackLog o n) → t.dl.held = s.dl.held) ∧ ∃ n, t.dl.held = s.dl.held.drop n) ∨
    (t.dl.nextSequence = s.dl.nextSequence + 1 ∧
      ((∃ l folder placards, i = .release l folder placards) ∨ (∃ o folder, i = .voidFolder o folder)) ∧
      ∃ e, t.dl.held = s.dl.held ++ [e] ∧ e.sequence = s.dl.nextSequence ∧ e.time ≤ s.tc.clock)

/-- Whatever happens in the slot of a bay's node, no folder changes that is not the bay's own, no account that is not
a driver of the bay's own folder and no alarm entry of such an account, no table, setting, log entry or right, no link
setting, cycle number or other node's entry, nothing of the clock but the high-water time, no reply, no attention
enable, no pin, and of the mode only a pending change that this completes (R121, R153, R154, R166, R191). -/
def Obligations.BayTouchesOnlyItsOwnFolder : Prop :=
  ∀ (i : Instr) (b : Fin 8) (s t : State),
    ((∃ l k fields, linkParts i = some (l, k, fields) ∧ l.node = nodeOfBay b) ∨
      (∃ moment body, i = .malformedFrame (nodeOfBay b) moment body) ∨ i = .damagedFrame (nodeOfBay b) ∨
      i = .emptySlot (nodeOfBay b)) →
    exec i s = .next t →
    (∀ f, (s.folder f).bay ≠ some b → t.folder f = s.folder f) ∧
    (∀ j, (∀ f, (s.folder f).bay = some b → j ∉ (s.folder f).drivers) → t.account j = s.account j ∧
      t.hu.alarms.filter (fun e => e.account == j) = s.hu.alarms.filter (fun e => e.account == j)) ∧
    t.gcu = s.gcu ∧ t.mr = s.mr ∧ t.dl = s.dl ∧ t.rc.allowed = s.rc.allowed ∧
    t.hu.profileA = s.hu.profileA ∧ t.hu.profileB = s.hu.profileB ∧
    (∀ n, n ≠ nodeOfBay b → t.node n = s.node n) ∧
    t.rlc.cyclePeriod = s.rlc.cyclePeriod ∧ t.rlc.silenceLimit = s.rlc.silenceLimit ∧ t.rlc.enrolled = s.rlc.enrolled ∧
    t.rlc.cycle = s.rlc.cycle ∧
    t.tc = { s.tc with highWater := t.tc.highWater } ∧ t.op = { s.op with flags := t.op.flags } ∧
    (t.mc = s.mc ∨ ∃ m, s.mc.pendingTarget = some m ∧ t.mc = { s.mc with mode := m, pendingTarget := none }) ∧
    t.pins = s.pins ∧ t.out = s.out ∧ t.pending = s.pending ∧
    t.underway = { s.underway with frame := t.underway.frame }

/-! ## What the checks and the arithmetic decide -/

/-- The plan check passes exactly the plans that fit: declared quantities, papers, pairs and drivers (R99 to R104). -/
def Obligations.PlanCheckPassesExactlyTheFitPlans : Prop :=
  ∀ (s : State) (x : Folder) (day : Nat), planCheck s x day = none ↔ PlanFits s x day

/-- A placard set holds exactly the groups 1 to 15 whose total over the non-EMPTY compartments is above 0 and at least
the group's threshold (R98). -/
def Obligations.PlacardSetHoldsTheGroupsOverThreshold : Prop :=
  ∀ (s : State) (quantity : Compartment → Nat) (cs : List Compartment) (g : Nat),
    hasMember (s.placardSet quantity cs) g = true ↔
      ∃ k : Fin 15, g = k.val + 1 ∧
        let total := ((cs.filter (fun c => ((s.product c).map (fun e => e.group.val)) == some g)).map quantity).sum
        0 < total ∧ s.threshold k ≤ total

/-- An interval of at most eight days gives each day it touches the count of its minutes of that day, in the bucket at
index day mod 8, emptied first if it bore another stamp; no other bucket changes (R14, R15, R16). -/
def Obligations.CreditGivesEachDayItsMinutes : Prop :=
  ∀ (offset a b : Nat) (driving : Bool) (buckets : Vector Bucket 8), offset ≤ 1439 → a < b →
    dayOf offset (b - 1) < dayOf offset a + 8 →
    (∀ day, dayOf offset a ≤ day → day ≤ dayOf offset (b - 1) →
      let held : Bucket := if buckets[Fin.ofNat 8 day].day = day then buckets[Fin.ofNat 8 day] else ⟨day, 0, 0⟩
      let n := ((List.range b).filter (fun m => decide (a ≤ m) && dayOf offset m == day)).length
      (creditBuckets offset a b driving buckets)[Fin.ofNat 8 day] =
        ⟨day, min 1440 (held.duty + n), if driving then min 1440 (held.drive + n) else held.drive⟩) ∧
    (∀ k : Fin 8, (∀ day, dayOf offset a ≤ day → day ≤ dayOf offset (b - 1) → day % 8 ≠ k.val) →
      (creditBuckets offset a b driving buckets)[k] = buckets[k])

/-- What a status change leaves in the record (R13 to R17): the interval of the old status credited into the buckets, nothing
in REST; status, since, the non-drive run, the shift, drive since break and the flags cleared by the four shift rules; card,
profile, endorsements, state, unread and live folder kept. -/
def Obligations.ShiftRulesAtAStatusChange : Prop :=
  ∀ (offset : Nat) (l : Limits) (new : Status) (time : Nat) (a : Account),
    let e := time / 60
    let rested := a.status = .rest ∧ l.rMin ≤ e - a.since / 60
    let driven := if a.status = .drive then e - a.since / 60 else 0
    let broken := new = .drive ∧ ∃ n, a.nonDriveSince = some n ∧ l.brkMin ≤ e - n
    let t := changedRecord offset l new time a
    t.status = new ∧ t.since = time ∧
    t.buckets = (match a.status with
      | .rest => a.buckets
      | .duty => creditBuckets offset (a.since / 60) e false a.buckets
      | .drive => creditBuckets offset (a.since / 60) e true a.buckets) ∧
    t.nonDriveSince = (if new = .drive then none else if a.status = .drive then some e else a.nonDriveSince) ∧
    (rested → t.shiftStart = (if new = .rest then none else some e) ∧ t.shiftDrive = 0 ∧ t.driveSinceBreak = 0) ∧
    (¬rested → t.shiftStart = (if new = .rest then a.shiftStart else some (a.shiftStart.getD e)) ∧
      t.shiftDrive = (if a.status = .drive then min 65535 (a.shiftDrive + driven) else a.shiftDrive)) ∧
    (broken → t.driveSinceBreak = 0) ∧
    (¬rested → ¬broken →
      t.driveSinceBreak = (if a.status = .drive then min 65535 (a.driveSinceBreak + driven) else a.driveSinceBreak)) ∧
    (∀ f : AlarmFlag, t.hasAlarm f = (a.hasAlarm f && !decide (f = .overWindow ∧ rested)
      && !decide ((f = .warn ∨ f = .overRun) ∧ a.status = .drive))) ∧
    t.state = a.state ∧ t.card = a.card ∧ t.profile = a.profile ∧ t.endorsements = a.endorsements ∧
    t.expiry = a.expiry ∧ t.unread = a.unread ∧ t.liveFolder = a.liveFolder

/-- A recompute leaves an account at most the one entry R55 places, due after the minute, leaves every other entry
where it stands, and raises OVER_RUN or OVER_WINDOW exactly where the limit is already reached. That an account in
DUTY without an open shift, which no run reaches, is given no WINDOW alarm is log 21 (DESIGN CHOICE). -/
def Obligations.RecomputePlacesTheNextAlarm : Prop :=
  ∀ (m : Nat) (i : Fin 64) (s : State),
    let a := s.account i
    let l := (s.profile a.profile).active
    let run := (s.figures i m).runAllowance
    let t := recomputeAt m i s
    let drives := a.state ≠ .free ∧ a.status = .drive
    let works := a.state ≠ .free ∧ a.status = .duty
    t.hu.alarms.filter (fun e => e.account != i) = s.hu.alarms.filter (fun e => e.account != i) ∧
    (drives → t.hu.alarms.filter (fun e => e.account == i) =
      (if l.warnLead < run then [⟨i, .warn, m + run - l.warnLead⟩] else if 0 < run then [⟨i, .limit, m + run⟩] else [])) ∧
    (works → ∀ start, a.shiftStart = some start → t.hu.alarms.filter (fun e => e.account == i) =
      (if m < start + l.wMax then [⟨i, .window, start + l.wMax⟩] else [])) ∧
    (¬drives → ¬works → t.hu.alarms.filter (fun e => e.account == i) = []) ∧
    (∀ e ∈ t.hu.alarms, e.account = i → m < e.due) ∧
    ((t.account i).hasAlarm .overRun = (a.hasAlarm .overRun || decide (drives ∧ run = 0))) ∧
    ((t.account i).hasAlarm .overWindow =
      (a.hasAlarm .overWindow || decide (works ∧ ∃ start ∈ a.shiftStart, start + l.wMax ≤ m))) ∧
    ((t.account i) ≠ a → (t.account i).unread = true ∧ hasMember t.op.flags AttentionFlag.alarm.bit = true) ∧
    (∀ j, j ≠ i → t.account j = s.account j) ∧
    { t with accounts := s.accounts, hu := s.hu, op := s.op } = s

/-- A minute boundary that is owed (log 2) fires every entry due (R48, R57): it raises the flag of each entry due at or before the minute,
leaves none due at or before it, and changes of the accounts only flags and unread marks. -/
def Obligations.DueAlarmsFireAtTheMinuteBoundary : Prop :=
  ∀ (s : State), s.AlarmsOk → s.running = true → s.tc.minuteDue = true →
    ∃ t, exec .minuteBoundary s = .next t ∧ t.tc.minuteDue = false ∧ t.tc.clock = s.tc.clock ∧
      (∀ e ∈ t.hu.alarms, t.minute < e.due) ∧
      (∀ e ∈ s.hu.alarms, e.due ≤ s.minute →
        (t.account e.account).hasAlarm (match e.kind with
          | .warn => .warn
          | .limit => .overRun
          | .window => .overWindow) = true) ∧
      (∀ i, { t.account i with alarms := (s.account i).alarms, unread := (s.account i).unread } = s.account i) ∧
      (∀ i f, (s.account i).hasAlarm f = true → (t.account i).hasAlarm f = true) ∧
      t.tc.treatedDay = s.today

/-- R128: the reason set of a release holds each reason exactly where the table puts it, once each; with the records in
order SUSPENDED stands exactly when a named driver is suspended, and the override mark excuses nothing. -/
def Obligations.ReleaseReasonsAreThoseOfTheTable : Prop :=
  ∀ (s : State) (x : Folder) (confirmed : MemberSet 16) (t : Nat),
    let demands := fun (e : Substance) => e.cls.val ≠ 0 ∧ ∃ c ∈ x.compartments, 0 < c.metered ∧ s.product c = some e
    let reasons := releaseReasons s x confirmed t
    reasons.Nodup ∧
    (∀ r, r ∈ reasons ↔
      match r with
      | .suspended => ∃ i ∈ x.drivers, (s.account i).state ≠ .active
      | .endorsement => ∃ i ∈ x.drivers, ∃ e, demands e ∧ hasMember (s.account i).endorsements e.cls.val = false
      | .expired => ∃ i ∈ x.drivers, (∃ e, demands e) ∧ (s.account i).expiry < s.dayOfMinute t
      | .hoursDrive => (x.drivers.map (fun i => (s.figures i t).shiftAllowance)).sum < x.plannedDrive
      | .hoursCycle => ∃ i ∈ x.drivers, (s.figures i t).cycleRoom < x.plannedDuty
      | .placard => confirmed ≠ s.placardSet Compartment.metered x.compartments
      | .logFull => 1024 ≤ s.dl.held.length ∨ s.dl.nextSequence = 4294967295
      | _ => False) ∧
    (∀ f, s.RecordsOk → s.folder f = x → x.state = .ready →
      (Reason.suspended ∈ reasons ↔ ∃ i ∈ x.drivers, (s.account i).state = .suspended)) ∧
    (∀ mark, releaseReasons s { x with overrideMark := mark } confirmed t = reasons)

/-- What an accepted running total does to its compartment: the record (R110), the move of the loading state with its
counts (R113 to R115), then the stop test on the new total (R116). -/
def Obligations.TotalSettlesAndOwesStops : Prop :=
  ∀ (m : MeterSettings) (fill : Option Nat) (bay : Fin 8) (arrival total : Nat) (flowing : Bool) (c : Compartment),
    c.inProgress = true →
    let d := takeTotal m fill bay arrival total flowing c
    let near := total - c.metered ≤ m.settleBand
    let restart := flowing = true ∧ (c.loading = .stopped ∨ c.loading = .settled)
    let settles := if c.loading = .stopped ∧ near then c.settleCount + 1 else 1
    let stops := if c.loading = .stopped ∨ c.loading = .settled then min 255 (c.stoppedReports + 1) else 1
    let overfull := ∃ limit, fill = some limit ∧ limit < total
    let heavy := c.declared + max m.amendFloor (c.declared * m.amendTenths / 1000) < total
    d.metered = total ∧ d.lastReport = some arrival ∧ d.capacity = c.capacity ∧ d.substance = c.substance ∧
    d.declared = c.declared ∧ d.rejectedReports = c.rejectedReports ∧ d.result = c.result ∧
    (flowing = true → d.loading = .flowing ∧ d.settleCount = 0 ∧ d.stoppedReports = 0) ∧
    (flowing = false → c.loading = .settled → near →
      d.loading = .settled ∧ d.settleCount = c.settleCount ∧ d.stoppedReports = c.stoppedReports) ∧
    (flowing = false → ¬(c.loading = .settled ∧ near) → d.settleCount = settles ∧ d.stoppedReports = stops ∧
      d.loading = (if m.settleMin ≤ settles then .settled else if m.settleMax ≤ stops then .unsettled else .stopped)) ∧
    (c.stopSent = true → ¬restart → d.stopSent = true ∧ d.owedStop = c.owedStop) ∧
    (c.stopSent = false ∨ restart →
      (overfull → d.stopSent = true ∧ d.owedStop = some ⟨.overfill, bay⟩) ∧
      (¬overfull → heavy → d.stopSent = true ∧ d.owedStop = some ⟨.overload, bay⟩) ∧
      (¬overfull → ¬heavy → d.stopSent = false ∧ d.owedStop = c.owedStop))

/-- The result of a compartment at reconciliation follows its loading state and the bands (R123), and the state of a
folder at evaluation follows its results (R76). -/
def Obligations.ReconciliationAndEvaluation : Prop :=
  (∀ (m : MeterSettings) (c : Compartment),
    let d := max (c.metered - c.declared) (c.declared - c.metered)
    let pass := max m.passFloor (c.declared * m.passTenths / 1000)
    let amend := max m.amendFloor (c.declared * m.amendTenths / 1000)
    (c.loading = .unsettled ∨ c.loading = .interrupted → reconcile m c = { c with result := some .fault }) ∧
    (c.loading = .loaded ∨ c.loading = .skipped →
      (d ≤ pass → reconcile m c = { c with result := some .matched }) ∧
      (pass < d → d ≤ amend → reconcile m c = { c with result := some .amend }) ∧
      (pass < d → amend < d → reconcile m c = { c with result := some .mismatch })) ∧
    (c.loading = .empty → reconcile m c = c)) ∧
  (∀ x : Folder,
    let holds := fun r => ∃ c ∈ x.compartments, c.substance.isSome = true ∧ c.result = some r
    evaluated x = { x with
      state := (evaluated x).state
      holdReasons := (evaluated x).holdReasons
      unread := true } ∧
    ((evaluated x).holdReasons.fault = true ↔ holds .fault) ∧
    ((evaluated x).holdReasons.mismatch = true ↔ holds .mismatch) ∧
    (holds .fault ∨ holds .mismatch → (evaluated x).state = .held) ∧
    (¬holds .fault → ¬holds .mismatch → holds .amend → (evaluated x).state = .amendWait) ∧
    (¬holds .fault → ¬holds .mismatch → ¬holds .amend → (evaluated x).state = .ready))

/-! ## Accounts -/

/-- OPEN ACCOUNT opens the lowest FREE record (R5), and EDIT ACCOUNT writes its four fields (R6), each with the expiry
test (R19). That today is the one at the handling is the model's choice (log 32, DESIGN CHOICE). -/
def Obligations.OpenAndEditAccountComplete : Prop :=
  ∀ (s : State) (o : OfficeFrame) (card : BitVec 32) (profile endorsements : Byte) (expiry : BitVec 16)
    (p : ProfileLetter) (i : Fin 64),
    s.admits o (.grouped .accountEdit) → ProfileLetter.ofCode profile = some p → card ≠ 0 →
    hasMember endorsements 0 = false →
    (∀ j, j ≠ i → (s.account j).state ≠ .free → (s.account j).card ≠ some card.toNat) →
    ((s.account i).state = .free → (∀ j, j < i → (s.account j).state ≠ .free) →
      let arrival := s.officeArrival
      let expired : Bool := decide (expiry.toNat < s.today)
      let u := seen .openAccount o s
      exec (.openAccount o card profile endorsements expiry) s = answersOk .openAccount o [BitVec.ofNat 8 i.val]
        { u.setAccount i
            { Account.free with
              state := .active
              card := some card.toNat
              profile := p
              endorsements := endorsements
              expiry := expiry.toNat
              since := arrival
              nonDriveSince := some (arrival / 60)
              alarms := if expired then withMember 0 AlarmFlag.expired.bit else 0
              unread := expired } with
          tc := { s.tc with highWater := max s.tc.highWater arrival }
          hu := { s.hu with alarms := s.hu.alarms.filter (fun e => e.account != i) }
          op := { s.op with
            flags := if expired then withMember s.op.flags AttentionFlag.alarm.bit else s.op.flags } }) ∧
    ((s.account i).state ≠ .free → ((s.account i).card = some card.toNat ∨ (s.account i).liveFolder = none) →
      ∀ index : Byte, index.toNat = i.val →
      let a := s.account i
      let w := (seen .editAccount o s).setAccount i
        { a with card := some card.toNat, profile := p, endorsements := endorsements, expiry := expiry.toNat }
      let m := if a.profile = p then w else recompute i w
      exec (.editAccount o index card profile endorsements expiry) s = answersOk .editAccount o []
        (if s.today ≤ expiry.toNat then m.setAccount i ((m.account i).clearAlarm .expired)
          else if a.state = .active then raiseAlarm i .expired m else m))

/-- SUSPEND ACCOUNT, CLOSE ACCOUNT, CLEAR LATE and READ ACCOUNT on an account that takes them (R7, R9, R10, R20). That
READ ACCOUNT gives the record at the handling is log 31 (DEDUCED); that an account's state, profile and status travel
in 1 byte each is log 16 (DESIGN CHOICE), and that unread is in no reply is log 33 (DESIGN CHOICE). -/
def Obligations.AccountMarkCommandsComplete : Prop :=
  ∀ (s : State) (o : OfficeFrame) (index : Byte) (i : Fin 64), index.toNat = i.val → (s.account i).state ≠ .free →
    let a := s.account i
    (s.admits o (.grouped .accountEdit) → a.state = .active →
      exec (.suspendAccount o index) s = answersOk .suspendAccount o []
        ((seen .suspendAccount o s).setAccount i { a with state := .suspended })) ∧
    (s.admits o (.grouped .accountEdit) → a.liveFolder = none →
      exec (.closeAccount o index) s = answersOk .closeAccount o []
        { (seen .closeAccount o s).setAccount i Account.free with
          hu := { s.hu with alarms := s.hu.alarms.filter (fun e => e.account != i) } }) ∧
    (s.admits o (.grouped .statusSet) →
      exec (.clearLate o index) s = answersOk .clearLate o []
        ((seen .clearLate o s).setAccount i { a with alarms := withoutMember a.alarms AlarmFlag.late.bit })) ∧
    (s.admits o .read →
      exec (.readAccount o index) s = answersOk .readAccount o a.bytes
        ((seen .readAccount o s).setAccount i { a with unread := false }))

/-- RESUME ACCOUNT's class, refusals and effect with the expiry test (R8, R19). That today is the one at the handling
is the model's choice (log 32, DESIGN CHOICE). -/
def Obligations.ResumeAccountMakesActive : Prop :=
  officeClass .resumeAccount = .grouped .accountEdit ∧
  ∀ (s : State) (o : OfficeFrame) (index : Byte), s.admits o (.grouped .accountEdit) →
    (63 < index.toNat → exec (.resumeAccount o index) s = refusesWith .resumeAccount o .range s) ∧
    ∀ i : Fin 64, index.toNat = i.val →
      let a := s.account i
      (a.state = .free → exec (.resumeAccount o index) s = refusesWith .resumeAccount o .unknownDriver s) ∧
      (a.state = .active → exec (.resumeAccount o index) s = refusesWith .resumeAccount o .badState s) ∧
      (a.state = .suspended →
        let u := (seen .resumeAccount o s).setAccount i { a with state := .active }
        exec (.resumeAccount o index) s = answersOk .resumeAccount o []
          (if a.expiry < s.today then raiseAlarm i .expired u else u))

/-- SET STATUS (R11, R13): a change to another status is credited, written and recomputed at its time; a time before
status since is clamped and raises LATE; a change to the status held ends there. That the clock a time may not pass is
the one at the handling is the model's choice (log 32, DESIGN CHOICE); that the status travels in 1 byte is log 16
(DESIGN CHOICE). -/
def Obligations.SetStatusMakesTheStatusChange : Prop :=
  ∀ (s : State) (o : OfficeFrame) (index status : Byte) (time : BitVec 32) (i : Fin 64) (new : Status),
    s.admits o (.grouped .statusSet) → index.toNat = i.val → Status.ofCode status = some new →
    (s.account i).state ≠ .free → time.toNat ≤ s.tc.clock →
    let a := s.account i
    let applied := max time.toNat a.since
    let u := seen .setStatus o s
    let noted := if time.toNat < a.since then raiseAlarm i .late u else u
    exec (.setStatus o index status time) s = answersOk .setStatus o (bytes4 applied ++ [status])
      (if a.status = new then noted
        else recompute i ((noted.setAccount i
          (changedRecord s.tc.dayOffset (s.profile a.profile).active new applied (noted.account i))).raiseHighWater
            applied))

/-! ## Reads -/

/-- READ TIME, which every office role may send, gives the clock, its minute, today, the day offset, the high-water
time and the clock-set indicator as they stand when the command is taken, at the rise of OSEL, whatever has been
counted or written since, and changes nothing (R44, R53). The arrival is the second stamped at the rise, or the clock
where nothing fell in between; that it is at most a second before the clock, and that nothing writes the day offset or
the indicator between the rise and the handling, are the model's reading (log 1, DEDUCED). -/
def Obligations.ReadTimeGivesTheClock : Prop :=
  officeClass .readTime = .read ∧ officeLength .readTime = 0 ∧
  ∀ (s : State) (o : OfficeFrame), s.admits o .read →
    let clock := s.officeArrival
    exec (.readTime o) s = answersOk .readTime o
      (bytes4 clock ++ bytes4 (clock / 60) ++ bytes2 ((clock / 60 + 1440 - s.tc.dayOffset) / 1440)
        ++ bytes2 s.tc.dayOffset ++ bytes4 s.highWaterTaken ++ [if s.tc.clockSet then 1 else 0])
      (seen .readTime o s)

/-- The reads of whole blocks give the records as they stand and change nothing (R84, R97, R107, R139, R141, R157,
R173, R184, R185, R193); what travels for an absent sequence, target or group is a free value (logs 9, 10, 11), and
widths R199 does not settle, the attention reason's among them, are log 16 (DESIGN CHOICE), and that the records are
those at the handling is log 31 (DEDUCED). -/
def Obligations.BlockReadsComplete : Prop :=
  ∀ (s : State) (o : OfficeFrame), s.admits o .read →
    exec (.nextFlaggedFolder o) s = answersOk .nextFlaggedFolder o
      (byteIndex (lowest 16 (fun f => (s.folder f).state != .free && (s.folder f).unread)))
      (seen .nextFlaggedFolder o s) ∧
    exec (.nextFlaggedAccount o) s = answersOk .nextFlaggedAccount o
      (byteIndex (lowest 64 (fun i => (s.account i).unread))) (seen .nextFlaggedAccount o s) ∧
    exec (.readThresholds o) s = answersOk .readThresholds o
      ((List.finRange 15).flatMap (fun k => bytes2 (s.threshold k))) (seen .readThresholds o s) ∧
    exec (.readMetering o) s = answersOk .readMetering o s.mr.bytes (seen .readMetering o s) ∧
    exec (.readLogOldest o) s = answersOk .readLogOldest o
      (bytes2 s.dl.held.length ++ (match s.dl.held with
        | [] => bytes4 s.dl.nextSequence
        | e :: _ => e.bytes)) (seen .readLogOldest o s) ∧
    exec (.logStatus o) s = answersOk .logStatus o
      (bytes2 s.dl.held.length ++ bytesSequence (s.dl.held.head?.map LogEntry.sequence)
        ++ bytesSequence (s.dl.held.getLast?.map LogEntry.sequence) ++ bytes4 s.dl.nextSequence ++ bytes2 s.dl.level
        ++ [if 1024 ≤ s.dl.held.length ∨ s.dl.nextSequence = maxSequence then 1 else 0]) (seen .logStatus o s) ∧
    exec (.readDenials o) s = answersOk .readDenials o
      (byte1 s.rc.denials.length ++ s.rc.denials.reverse.flatMap Denial.bytes) (seen .readDenials o s) ∧
    exec (.readLink o) s = answersOk .readLink o
      (bytes2 s.rlc.cyclePeriod ++ byte1 s.rlc.silenceLimit ++ bytes2 s.rlc.enrolled.toNat ++ [s.rlc.cycle]
        ++ byte1 s.rlc.queue.length ++ byte1 s.rlc.reserved ++ byte1 s.owedStops.length
        ++ (List.finRange 9).flatMap (fun n => (s.node n).bytes)) (seen .readLink o s) ∧
    exec (.readAttention o) s = answersOk .readAttention o
      (bytes2 s.op.flags.toNat ++ bytes2 s.op.enables.toNat ++ byte1 (attentionReasonCode s))
      (seen .readAttention o s) ∧
    exec (.readMode o) s = answersOk .readMode o
      (byte1 s.mc.mode.code ++ [pendingByte s.mc.pendingTarget] ++ byte1 s.loadingCount
        ++ [if s.tc.clockSet then 1 else 0] ++ byte1 s.mc.lastStart.kind.code ++ byte1 s.mc.lastStart.cause.code)
      (seen .readMode o s)

/-- The reads of an account, a profile, the figures and the alarm list answer from the records at the arrival minute
and change nothing (R4, R38, R39, R41, R61); the minute a reply reports is log 20. The figures they give are those of
R22 to R31: the open interval credited into a view, the lazy break and the lazy rest, then a1 to a4, the cycle duty of
the eight days, and the three allowances. That an account's state and profile and an alarm entry's kind travel in 1
byte each, and that the figures of a second driver the folder does not have travel as absent minutes, is log 16
(DESIGN CHOICE). -/
def Obligations.AccountAndHoursReadsComplete : Prop :=
  ∀ s : State,
    (∀ (i : Fin 64) (asked : Nat),
      let a := s.account i
      let l := (s.profile a.profile).active
      let since := a.since / 60
      let t := max asked since
      let today := dayOf s.tc.dayOffset t
      let broken := a.status ≠ .drive ∧ ∃ n, a.nonDriveSince = some n ∧ l.brkMin ≤ t - n
      let rested := a.status = .rest ∧ l.rMin ≤ t - since
      let grown := fun (n : Nat) => if a.status = .drive then min 65535 (n + (t - since)) else n
      let buckets := match a.status with
        | .rest => a.buckets
        | .duty => creditBuckets s.tc.dayOffset since t false a.buckets
        | .drive => creditBuckets s.tc.dayOffset since t true a.buckets
      let counted := fun (b : Bucket) => 1 ≤ b.day ∧ today ≤ b.day + 7 ∧ b.day ≤ today
      let g := s.figures i asked
      g.minute = t ∧ g.today = today ∧
      (rested → g.a1 = l.dMax ∧ g.a2 = l.wMax ∧ g.a3 = l.bMax ∧ g.viewShift = none) ∧
      (¬rested → g.a1 = (l.dMax : Int) - grown a.shiftDrive ∧ g.viewShift = a.shiftStart ∧
        (∀ start, a.shiftStart = some start → g.a2 = (l.wMax : Int) - ((t : Int) - start)) ∧
        (a.shiftStart = none → g.a2 = l.wMax) ∧
        (broken → g.a3 = l.bMax) ∧ (¬broken → g.a3 = (l.bMax : Int) - grown a.driveSinceBreak)) ∧
      (g.lazyBreak = true ↔ broken) ∧ (g.lazyRest = true ↔ rested) ∧
      g.cycleDuty = ((List.finRange 8).map (fun k => if counted buckets[k] then buckets[k].duty else 0)).sum ∧
      g.a4 = (l.cMax : Int) - g.cycleDuty ∧
      (g.shiftAllowance : Int) = max 0 (min g.a1 (min g.a2 g.a4)) ∧
      (g.runAllowance : Int) = max 0 (min (g.shiftAllowance : Int) g.a3) ∧
      (g.cycleRoom : Int) = max 0 g.a4 ∧
      g.runAllowance ≤ g.shiftAllowance ∧ g.shiftAllowance ≤ l.dMax) ∧
    ∀ o : OfficeFrame, s.admits o .read →
    let t := s.officeArrival / 60
    (∀ (card : BitVec 32) (i : Fin 64), card ≠ 0 → (s.account i).state ≠ .free → (s.account i).card = some card.toNat →
      (∀ j, j < i → (s.account j).state ≠ .free → (s.account j).card ≠ some card.toNat) →
      exec (.findCard o card) s = answersOk .findCard o (byte1 i.val ++ byte1 (s.account i).state.code)
        (seen .findCard o s)) ∧
    (∀ (letter : Byte) (p : ProfileLetter), ProfileLetter.ofCode letter = some p →
      exec (.readProfile o letter) s = answersOk .readProfile o
        ((s.profile p).active.bytes ++ [if (s.profile p).pendingValid then 1 else 0] ++ (s.profile p).pendingCopy.bytes)
        (seen .readProfile o s)) ∧
    (∀ (index : Byte) (i : Fin 64), index.toNat = i.val → (s.account i).state ≠ .free →
      exec (.readAllowance o index) s = answersOk .readAllowance o
        ((s.figures i t).bytes (s.account i).profile) (seen .readAllowance o s)) ∧
    (∀ (folder : Byte) (f : Fin 16), folder.toNat = f.val → (s.folder f).state ≠ .free →
      exec (.hoursCheck o folder) s = answersOk .hoursCheck o
        ((hoursTest s (s.folder f) t).bytes t) (seen .hoursCheck o s)) ∧
    (∀ position : Byte, position.toNat ≤ 63 →
      exec (.readAlarms o position) s = answersOk .readAlarms o
        (byte1 s.hu.alarms.length ++ ((s.hu.alarms.drop position.toNat).take 16).flatMap AlarmEntry.bytes)
        (seen .readAlarms o s))

/-- The reads of a folder, a compartment, the goods tables and the log give the records as they stand; READ FOLDER
clears the folder's unread mark and nothing else changes (R83, R92, R96, R125, R139). What travels as the reason of a
STOP that is not owed is a free value (log 12); widths R199 does not settle are log 16, that unread is in no reply is
log 33 (DESIGN CHOICE), and that the records are those at the handling is log 31 (DEDUCED). -/
def Obligations.FolderGoodsAndLogReadsComplete : Prop :=
  ∀ (s : State) (o : OfficeFrame), s.admits o .read →
    (∀ (folder : Byte) (f : Fin 16), folder.toNat = f.val → (s.folder f).state ≠ .free →
      exec (.readFolder o folder) s = answersOk .readFolder o (s.folder f).bytes
        ((seen .readFolder o s).setFolder f { s.folder f with unread := false })) ∧
    (∀ (folder compartment : Byte) (f : Fin 16) (c : Compartment), folder.toNat = f.val →
      (s.folder f).compartments[compartment.toNat]? = some c →
      exec (.readCompartment o folder compartment) s = answersOk .readCompartment o c.bytes
        (seen .readCompartment o s)) ∧
    (∀ (code : BitVec 16) (e : Substance), code ≠ 0 → s.substance code.toNat = some e →
      exec (.readSubstance o code) s = answersOk .readSubstance o
        (byte1 e.group.val ++ byte1 e.cls.val ++ bytes2 e.fill ++ [if (s.namedBy code.toNat).isSome then 1 else 0]
          ++ byteIndex (s.namedBy code.toNat)) (seen .readSubstance o s)) ∧
    (∀ position : Byte, position.toNat ≤ 127 →
      exec (.listSubstances o position) s = answersOk .listSubstances o
        (byte1 s.gcu.substances.length ++ ((s.gcu.substances.drop position.toNat).take 16).flatMap Substance.bytes)
        (seen .listSubstances o s)) ∧
    (∀ (g : Byte) (row : Fin 16), g.toNat = row.val →
      exec (.readMatrix o g) s = answersOk .readMatrix o
        ((List.finRange 16).map (fun h => BitVec.ofNat 8 (s.cell row h).code)) (seen .readMatrix o s)) ∧
    (∀ (sequence : BitVec 32) (e : LogEntry), s.dl.held.find? (fun x => x.sequence == sequence.toNat) = some e →
      exec (.readLog o sequence) s = answersOk .readLog o (bytes2 s.dl.held.length ++ e.bytes) (seen .readLog o s))

/-! ## Profiles and the clock -/

/-- SET PROFILE in CONFIG writes both copies and recomputes every ACTIVE or SUSPENDED account that names the profile,
and no other, at the present minute (R34); in RUN it writes the pending copy alone (R35); CANCEL PENDING PROFILE gives
the pending copy the active items (R36). -/
def Obligations.ProfileEditsComplete : Prop :=
  ∀ (s : State) (o : OfficeFrame) (letter : Byte) (p : ProfileLetter), s.admits o .tableEdit →
    ProfileLetter.ofCode letter = some p →
    (∀ dMax wMax bMax brkMin rMin cMax warnLead : BitVec 16,
      let l : Limits := ⟨dMax.toNat, wMax.toNat, bMax.toNat, brkMin.toNat, rMin.toNat, cMax.toNat, warnLead.toNat⟩
      60 ≤ l.dMax ∧ l.dMax ≤ 1440 → 60 ≤ l.wMax ∧ l.wMax ≤ 1440 → 1 ≤ l.brkMin ∧ l.brkMin ≤ 120 →
      60 ≤ l.rMin ∧ l.rMin ≤ 1440 → 60 ≤ l.cMax ∧ l.cMax ≤ 11520 → l.warnLead ≤ 120 → l.dMax ≤ l.wMax →
      30 ≤ l.bMax ∧ l.bMax ≤ l.dMax →
      let u := seen .setProfile o s
      (s.mc.mode = .config → ∃ t,
        exec (.setProfile o letter dMax wMax bMax brkMin rMin cMax warnLead) s = answersOk .setProfile o [] t ∧
        Recomputed (fun i => (s.account i).state ≠ .free ∧ (s.account i).profile = p) (fun _ => False)
          (u.setProfile p ⟨l, l, false⟩) t) ∧
      (s.mc.mode = .run → exec (.setProfile o letter dMax wMax bMax brkMin rMin cMax warnLead) s =
        answersOk .setProfile o [] (u.setProfile p ⟨(s.profile p).active, l, true⟩))) ∧
    (s.mc.mode ≠ .listen → (s.profile p).pendingValid = true →
      exec (.cancelPendingProfile o letter) s = answersOk .cancelPendingProfile o []
        ((seen .cancelPendingProfile o s).setProfile p ⟨(s.profile p).active, (s.profile p).active, false⟩))

/-- SET TIME in CONFIG places the clock and the day offset (R50), ADJUST TIME moves the clock forward (R51), each as
one time jump (R52): one firing pass where the terminal minute has risen, then the day's work where the day has
changed (R49), otherwise the recompute of every ACTIVE or SUSPENDED account where the minute has changed. What a jump
does while a counted boundary is still owed is the model's choice (log 2), and so is that the clock SET TIME and
ADJUST TIME move is the one at the handling (log 32). A SET TIME whose offset is in range and that lowers today is
supervisor-only: under the OFFICE role it is denied, in every mode and whatever the TIME cell holds; one that does not
lower it, or whose offset is out of range, is of group TIME; today there is the day of the second at which OSEL rose,
whatever has been counted since (R150, R158). -/
def Obligations.ClockMovesComplete : Prop :=
  ∀ (s : State) (o : OfficeFrame),
    let today := (s.officeArrival / 60 + 1440 - s.tc.dayOffset) / 1440
    (∀ (value : BitVec 32) (offset : BitVec 16),
      let lowers := offset.toNat ≤ 1439 ∧ (value.toNat / 60 + 1440 - offset.toNat) / 1440 < today
      s.handles o → o.skey = false → (lowers ∨ s.allows .time = false) →
      exec (.setTime o value offset) s = .next
        (let u := seen .setTime o s
         { u with
           op := { u.op with
             reply := some ⟨o.tag, officeCode .setTime, some .deniedRole, []⟩
             flags := withMember u.op.flags AttentionFlag.access.bit }
           rc := { u.rc with denials :=
             (if u.rc.denials.length < 8 then u.rc.denials else u.rc.denials.drop (u.rc.denials.length - 7)) ++
               [⟨.office, none, .office .setTime, if lowers then none else some .time, .deniedRole, none,
                 s.officeArrival⟩] } })) ∧
    (∀ (value : BitVec 32) (offset : BitVec 16),
      let day := (value.toNat / 60 + 1440 - offset.toNat) / 1440
      s.handles o → (o.skey = true ∨ (s.allows .time = true ∧ today ≤ day)) → s.mc.mode = .config →
      value.toNat ≤ 4294967294 → offset.toNat ≤ 1439 → 1 ≤ day → s.tc.clock ≤ value.toNat →
      ∃ t, exec (.setTime o value offset) s = answersOk .setTime o (bytes4 value.toNat ++ bytes2 day) t ∧
        JumpTaken s.minute { seen .setTime o s with
          tc := { s.tc with clock := value.toNat, dayOffset := offset.toNat, clockSet := true } } t) ∧
    (∀ seconds : BitVec 16, s.admits o (.grouped .time) → 1 ≤ seconds.toNat → seconds.toNat ≤ 3600 →
      s.tc.clock + seconds.toNat ≤ 4294967294 →
      ∃ t, exec (.adjustTime o seconds) s = answersOk .adjustTime o (bytes4 (s.tc.clock + seconds.toNat)) t ∧
        JumpTaken s.minute { seen .adjustTime o s with
          tc := { s.tc with clock := s.tc.clock + seconds.toNat } } t)

/-- The clock's events (R44, R48, R49; log 2). A counted second raises the clock by one up to its largest value and
owes a minute boundary where it enters a minute. A boundary makes the firing pass at the new minute and then the day
check: where today is not the treated day, the day's work (profiles transferred, EXPIRED raised on exactly the ACTIVE
accounts whose expiry is earlier than today, every ACTIVE or SUSPENDED account recomputed, treated day written), and
nothing where it is. A boundary still owed is taken by MINUTE BOUNDARY, by DAY BOUNDARY, and before the next second is
counted; with none owed, MINUTE BOUNDARY counts a second that enters a minute and takes its boundary, and DAY BOUNDARY
makes the day check alone. -/
def Obligations.ClockEventsComplete : Prop :=
  ∀ s : State, s.running = true →
    let counted := if s.tc.clock < 4294967294 then s.tc.clock + 1 else s.tc.clock
    let enters : Bool := decide (s.tc.clock / 60 < counted / 60)
    (s.tc.minuteDue = true → ∃ t,
      DayChecked (firingPass s.minute { s with tc := { s.tc with minuteDue := false } }) t ∧
      exec .minuteBoundary s = .next t ∧ exec .dayBoundary s = .next t ∧
      exec .clockSecondCount s = .next { t with tc := { t.tc with clock := counted, minuteDue := enters } }) ∧
    (s.tc.minuteDue = false →
      exec .clockSecondCount s = .next { s with tc := { s.tc with clock := counted, minuteDue := enters } } ∧
      (enters = true → ∃ t,
        DayChecked (firingPass (counted / 60) { s with tc := { s.tc with clock := counted } }) t ∧
        exec .minuteBoundary s = .next t) ∧
      (enters = false → exec .minuteBoundary s = .next s) ∧
      ∃ t, DayChecked s t ∧ exec .dayBoundary s = .next t)

/-! ## Folders -/

/-- CREATE FOLDER opens the lowest FREE folder that owes no STOP, for ACTIVE drivers without a live folder, with the
compartments given at their starting values, and the drivers' live folders name it (R65). -/
def Obligations.CreateFolderComplete : Prop :=
  ∀ (s : State) (o : OfficeFrame) (tanker : BitVec 32) (primary second : Byte) (drive duty : BitVec 16) (count : Byte)
    (slots : Vector (BitVec 16) 6) (p : Fin 64) (q : Option (Fin 64)) (f : Fin 16),
    s.admits o (.grouped .folderEdit) → tanker ≠ 0 → drive.toNat ≤ 1440 → duty.toNat ≤ 1440 →
    primary.toNat = p.val → (match q with | none => second = 0xFF | some j => second.toNat = j.val ∧ j ≠ p) →
    1 ≤ count.toNat → count.toNat ≤ 6 →
    (∀ c ∈ slots.toList.take count.toNat, 100 ≤ c.toNat ∧ c.toNat ≤ 60000) →
    (∀ i ∈ p :: q.toList, (s.account i).state = .active ∧ (s.account i).liveFolder = none) →
    (s.folder f).state = .free → (∀ c ∈ (s.folder f).compartments, c.owedStop = none) →
    (∀ g, g < f → (s.folder g).state ≠ .free ∨ ∃ c ∈ (s.folder g).compartments, c.owedStop ≠ none) →
    ∃ t, exec (.createFolder o tanker primary second drive duty count slots) s =
        answersOk .createFolder o [BitVec.ofNat 8 f.val] t ∧
      t.folder f =
        { Folder.free ((slots.toList.take count.toNat).map (fun c => Compartment.starting c.toNat)) with
          state := .opened
          tanker := tanker.toNat
          primary := p
          second := q
          plannedDrive := drive.toNat
          plannedDuty := duty.toNat
          created := s.officeArrival } ∧
      (∀ g, g ≠ f → t.folder g = s.folder g) ∧
      (∀ i, t.account i = if i ∈ p :: q.toList then { s.account i with liveFolder := some f } else s.account i) ∧
      { t with folders := s.folders, accounts := s.accounts } = seen .createFolder o s

/-- SET COMPARTMENT and SET PAPERS write the plan of an OPEN folder (R66, R67), SET TRIP the trip of a folder from OPEN to
READY (R68), and ASSIGN BAY the bay of a PAPERED folder in RUN with no change pending (R72). -/
def Obligations.PlanningCommandsComplete : Prop :=
  ∀ (s : State) (o : OfficeFrame) (folder : Byte) (f : Fin 16), folder.toNat = f.val →
    let x := s.folder f
    (∀ (compartment : Byte) (capacity substance declared : BitVec 16) (c : Compartment),
      s.admits o (.grouped .folderEdit) → x.state = .opened → x.compartments[compartment.toNat]? = some c →
      100 ≤ capacity.toNat → capacity.toNat ≤ 60000 → declared.toNat ≤ 60000 →
      let d : Compartment := { c with
        capacity := capacity.toNat
        substance := if substance = 0 then none else some substance.toNat
        declared := declared.toNat }
      exec (.setCompartment o folder compartment capacity substance declared) s = answersOk .setCompartment o []
        ((seen .setCompartment o s).setFolder f { x with compartments := x.compartments.set compartment.toNat d })) ∧
    (∀ (count : Byte) (slots : Vector (BitVec 16 × Byte) 6),
      s.admits o (.grouped .folderEdit) → x.state = .opened → count.toNat ≤ 6 →
      (∀ p ∈ slots.toList.take count.toNat, p.1 ≠ 0 ∧ p.2 ≠ 0 ∧
        ∀ k, hasMember p.2 k = true → k < x.compartments.length) →
      exec (.setPapers o folder count slots) s = answersOk .setPapers o []
        ((seen .setPapers o s).setFolder f
          { x with papers := (slots.toList.take count.toNat).map (fun p => ⟨p.1.toNat, p.2⟩) })) ∧
    (∀ drive duty : BitVec 16, s.admits o (.grouped .folderEdit) → x.state ≠ .free → x.state ≠ .released →
      drive.toNat ≤ 1440 → duty.toNat ≤ 1440 →
      exec (.setTrip o folder drive duty) s = answersOk .setTrip o []
        ((seen .setTrip o s).setFolder f { x with plannedDrive := drive.toNat, plannedDuty := duty.toNat })) ∧
    (∀ (bay : Byte) (b : Fin 8), s.admits o (.grouped .assign) → bay.toNat = b.val → s.mc.mode = .run →
      s.mc.pendingTarget = none → x.state = .papered → (∀ g, g ≠ f → (s.folder g).bay ≠ some b) →
      hasMember s.rlc.enrolled b.val = true → (s.node (nodeOfBay b)).state ≠ .isolated →
      exec (.assignBay o folder bay) s = answersOk .assignBay o []
        ((seen .assignBay o s).setFolder f { x with state := .assigned, bay := some b }))

/-- SUBMIT of an OPEN folder makes the plan check at its arrival day (R69, R99). A plan that passes makes the folder
PAPERED with the placard set of its declared quantities. A plan that fails is refused with the reason and the index of
its first failure, and nothing else changes: the seven tests of `planTests` in their order, each at its lowest failing
index (R100, R101), then the pairs, j ascending and for each j, i ascending (R102), then the endorsement test of the
primary and of the second driver, ENDORSEMENT before EXPIRED (R103, R104). The bytes of a refusal, the index mark
first, are laid out as log 15 says (DESIGN CHOICE). -/
def Obligations.SubmitMakesThePlanCheck : Prop :=
  ∀ (s : State) (o : OfficeFrame) (folder : Byte) (f : Fin 16), s.admits o (.grouped .folderEdit) →
    folder.toNat = f.val → (s.folder f).state = .opened →
    let x := s.folder f
    let day := dayOf s.tc.dayOffset (s.officeArrival / 60)
    let placards := s.placardSet Compartment.declared x.compartments
    let fails := fun (r : Reason) (indices : List Nat) =>
      exec (.submit o folder) s =
        .next (replyHeld .submit o (some r) (indices.map (BitVec.ofNat 8)) (seen .submit o s))
    let tested := fun (i : Fin 64) =>
      (LacksEndorsement s x i → fails .endorsement [2, i.val]) ∧
      (¬LacksEndorsement s x i → EndorsementsLapsed s x day i → fails .expired [2, i.val])
    (planCheck s x day = none →
      exec (.submit o folder) s = answersOk .submit o (bytes2 placards.toNat)
        ((seen .submit o s).setFolder f { x with state := .papered, placards := placards })) ∧
    (∀ (n : Nat) (test : PlanTest) (k : Nat), (planTests s x)[n]? = some test → FirstAt test.failsAt k →
      (∀ earlier ∈ (planTests s x).take n, ∀ m, ¬earlier.failsAt m) → fails test.reason [test.mark, k]) ∧
    ((∀ test ∈ planTests s x, ∀ m, ¬test.failsAt m) →
      (∀ i j, FirstAt (fun j => ∃ i, PairClashes s x i j) j → FirstAt (fun i => PairClashes s x i j) i →
        fails .incompatible [1, j, i]) ∧
      ((∀ i j, ¬PairClashes s x i j) →
        tested x.primary ∧
        (¬LacksEndorsement s x x.primary → ¬EndorsementsLapsed s x day x.primary →
          ∀ i, x.second = some i → tested i)))

/-- R70, whole: REOPEN's class, refusals and effect, in every mode; and UNASSIGN of an ASSIGNED folder, with its class
and refusals (R73); a LOADING folder is not unassigned. -/
def Obligations.ReopenAndUnassign : Prop :=
  officeClass .reopen = .grouped .folderEdit ∧ officeClass .unassign = .grouped .assign ∧
  ∀ (s : State) (o : OfficeFrame) (folder : Byte),
    (s.admits o (.grouped .folderEdit) →
      (15 < folder.toNat → exec (.reopen o folder) s = refusesWith .reopen o .range s) ∧
      ∀ f : Fin 16, folder.toNat = f.val →
        ((s.folder f).state ≠ .papered → exec (.reopen o folder) s = refusesWith .reopen o .badState s) ∧
        ((s.folder f).state = .papered → exec (.reopen o folder) s = answersOk .reopen o []
          ((seen .reopen o s).setFolder f { s.folder f with state := .opened, placards := 0 }))) ∧
    (s.admits o (.grouped .assign) →
      (15 < folder.toNat → exec (.unassign o folder) s = refusesWith .unassign o .range s) ∧
      ∀ f : Fin 16, folder.toNat = f.val →
        ((s.folder f).state ≠ .assigned → exec (.unassign o folder) s = refusesWith .unassign o .badState s) ∧
        ((s.folder f).state = .assigned → exec (.unassign o folder) s = answersOk .unassign o []
          ((seen .unassign o s).setFolder f { s.folder f with state := .papered, bay := none })))

/-- AMEND of a compartment whose result may be amended (R77, R124), OVERRIDE of a waiting folder (R78), and FINISH
LOADING of a LOADING one (R120, R75): the folder is evaluated, or made READY with the mark; unread and FOLDER are set;
a pending mode change completes with the last LOADING folder (R191). That a substance the table does not hold sets no
fill limit is log 21 (DESIGN CHOICE); that a result and a folder state travel in 1 byte each is log 16 (DESIGN
CHOICE). -/
def Obligations.AmendOverrideAndFinishComplete : Prop :=
  ∀ (s : State) (o : OfficeFrame) (folder : Byte) (f : Fin 16), folder.toNat = f.val →
    let x := s.folder f
    (∀ (compartment : Byte) (declared : BitVec 16) (c : Compartment), s.admits o (.grouped .amend) →
      x.state = .amendWait ∨ x.state = .held → x.compartments[compartment.toNat]? = some c →
      c.result = some .amend ∨ c.result = some .mismatch →
      (∀ limit, s.fillLimit c = some limit → declared.toNat ≤ limit) →
      let d := reconcile s.mr { c with declared := declared.toNat }
      let y := evaluated { x with compartments := x.compartments.set compartment.toNat d }
      exec (.amend o folder compartment declared) s = answersOk .amend o (byte1 (resultCode d.result) ++ byte1 y.state.code)
        (setAttention .folder ((seen .amend o s).setFolder f y))) ∧
    (s.admits o .supervisorOnly → x.state = .amendWait ∨ x.state = .held →
      exec (.overrideFolder o folder) s = answersOk .overrideFolder o []
        (setAttention .folder ((seen .overrideFolder o s).setFolder f
          { x with state := .ready, overrideMark := true, holdReasons := ⟨false, false⟩, unread := true }))) ∧
    (s.admits o (.grouped .finish) → x.state = .loading →
      let cs := x.compartments.map (fun c => reconcile s.mr (skipPlanned (interrupt c)))
      let y := evaluated { x with compartments := cs, bay := none }
      let v := setAttention .folder ((seen .finishLoading o s).setFolder f y)
      exec (.finishLoading o folder) s = answersOk .finishLoading o (byte1 y.state.code)
        (match s.mc.pendingTarget with
          | some m =>
            if ∀ g, g ≠ f → (s.folder g).state ≠ .loading then
              setAttention .mode { v with mc := { v.mc with mode := m, pendingTarget := none } }
            else v
          | none => v))

/-- VOID of a folder from OPEN to READY (R80): a VOID entry with the fields of R136 where product was metered, a STOP
VOID owed by each running compartment of a LOADING folder, the drivers freed, the folder FREE with its compartments
kept, and a pending mode change completed if it was the last LOADING folder. The entry sets LOG where it leaves the
held count at the warning level or above it (R137), the completion sets MODE (R191), and no other flag changes. What
travels for no entry is a free value (log 9). That a LOADING folder without a bay, which no run reaches, owes no STOP
is log 21 (DESIGN CHOICE). -/
def Obligations.VoidComplete : Prop :=
  ∀ (s : State) (o : OfficeFrame) (folder : Byte) (f : Fin 16), s.admits o (.grouped .voiding) → folder.toNat = f.val →
    (s.folder f).state ≠ .free → (s.folder f).state ≠ .released →
    ((∃ c ∈ (s.folder f).compartments, 0 < c.metered) → s.logFull = false) →
    let x := s.folder f
    let arrival := s.officeArrival
    let product : Bool := x.compartments.any (fun c => decide (0 < c.metered))
    let entry : LogEntry := {
      sequence := s.dl.nextSequence
      kind := .voided
      time := arrival
      folder := f
      tanker := x.tanker
      primaryCard := (s.account x.primary).card
      secondCard := x.second.bind (fun i => (s.account i).card)
      plannedDrive := x.plannedDrive
      plannedDuty := x.plannedDuty
      sPrimary := none
      sSecond := none
      placards := s.placardSet Compartment.metered x.compartments
      compartments := x.compartments.zipIdx.map (fun p =>
        ⟨p.2, p.1.substance, p.1.declared, p.1.metered, none⟩) }
    ∃ t, exec (.voidFolder o folder) s =
        answersOk .voidFolder o (bytesSequence (if product then some s.dl.nextSequence else none)) t ∧
      t.folder f = Folder.free (match x.state, x.bay with
        | .loading, some b => x.compartments.map (fun c =>
          if c.inProgress then { c with owedStop := some ⟨.voided, b⟩, loading := .interrupted } else c)
        | _, _ => x.compartments) ∧
      (∀ g, g ≠ f → t.folder g = s.folder g) ∧
      (∀ i, t.account i = if i ∈ x.drivers then { s.account i with liveFolder := none } else s.account i) ∧
      t.dl = (if product then { s.dl with held := s.dl.held ++ [entry], nextSequence := s.dl.nextSequence + 1 } else s.dl) ∧
      t.tc = (if product then { s.tc with highWater := max s.tc.highWater arrival } else s.tc) ∧
      (∀ m, s.mc.pendingTarget = some m → x.state = .loading → (∀ g, g ≠ f → (s.folder g).state ≠ .loading) →
        t.mc = { s.mc with mode := m, pendingTarget := none }) ∧
      (∀ a : AttentionFlag, hasMember t.op.flags a.bit = (hasMember s.op.flags a.bit ||
        decide (a = .log ∧ product = true ∧ s.dl.level ≤ s.dl.held.length + 1) ||
        decide (a = .mode ∧ s.mc.pendingTarget.isSome = true ∧ x.state = .loading ∧
          ∀ g, g ≠ f → (s.folder g).state ≠ .loading))) ∧
      (s.mc.pendingTarget = none ∨ x.state ≠ .loading ∨ (∃ g, g ≠ f ∧ (s.folder g).state = .loading) → t.mc = s.mc) ∧
      { t with
        folders := s.folders, accounts := s.accounts, dl := s.dl, tc := s.tc, mc := s.mc
        op := { t.op with flags := s.op.flags } } = seen .voidFolder o s

/-! ## Tables, settings, rights -/

/-- SET SUBSTANCE and CLEAR SUBSTANCE in CONFIG: the code's entry is written in code order or removed, and every other
code keeps its entry (R87, R90, R91). -/
def Obligations.SubstanceEditsComplete : Prop :=
  ∀ (s : State) (o : OfficeFrame) (code : BitVec 16), s.TablesOk → s.admits o .tableEdit → s.mc.mode = .config → code ≠ 0 →
    (∀ (group cls : Byte) (fill : BitVec 16) (g : Fin 16) (k : Fin 8), group.toNat = g.val → cls.toNat = k.val →
      500 ≤ fill.toNat → fill.toNat ≤ 1000 →
      let e : Substance := ⟨code.toNat, g, k, fill.toNat⟩
      (s.substance code.toNat = none ∧ s.gcu.substances.length < 128 ∨
        s.substance code.toNat = some e ∨ (s.substance code.toNat).isSome ∧ s.namedBy code.toNat = none) →
      ∃ table, exec (.setSubstance o code group cls fill) s = answersOk .setSubstance o (byte1 table.length)
          { seen .setSubstance o s with gcu := { s.gcu with substances := table } } ∧
        table.Pairwise (fun x y => x.code < y.code) ∧
        (∀ n, findSubstance n table = if n = code.toNat then some e else s.substance n)) ∧
    ((s.substance code.toNat).isSome → s.namedBy code.toNat = none →
      ∃ table, exec (.clearSubstance o code) s = answersOk .clearSubstance o (byte1 table.length)
          { seen .clearSubstance o s with gcu := { s.gcu with substances := table } } ∧
        table.length + 1 = s.gcu.substances.length ∧
        (∀ n, findSubstance n table = if n = code.toNat then none else s.substance n))

/-- SET MATRIX PAIR in CONFIG writes both cells and returns to OPEN exactly the PAPERED and ASSIGNED folders that hold
both groups (R94, R95, R81); a ruling already held changes nothing. The set of returned folders travels as log 14 says. -/
def Obligations.MatrixPairReturnsAffectedFolders : Prop :=
  ∀ (s : State) (o : OfficeFrame) (g h ruling : Byte) (row col : Fin 16) (r : Ruling), s.admits o .tableEdit →
    s.mc.mode = .config → g.toNat = row.val → h.toNat = col.val → Ruling.ofCode ruling = some r →
    row ≠ col → row ≠ 0 → col ≠ 0 →
    let holds := fun (x : Folder) (k : Fin 16) => ∃ c ∈ x.compartments, ∃ e, s.product c = some e ∧ e.group = k
    let affected := fun (x : Folder) => (x.state = .papered ∨ x.state = .assigned) ∧ holds x row ∧ holds x col
    (s.cell row col = r → exec (.setMatrixPair o g h ruling) s =
      answersOk .setMatrixPair o [0, 0] (seen .setMatrixPair o s)) ∧
    (s.cell row col ≠ r → ∃ (t : State) (returned : MemberSet 16),
      exec (.setMatrixPair o g h ruling) s = answersOk .setMatrixPair o (bytes2 returned.toNat) t ∧
      (∀ f : Fin 16, hasMember returned f.val = true ↔ affected (s.folder f)) ∧
      (∀ f, (affected (s.folder f) → t.folder f =
          { s.folder f with state := .opened, bay := none, placards := 0, unread := true }) ∧
        (¬affected (s.folder f) → t.folder f = s.folder f)) ∧
      (∀ a b, t.cell a b = if (a = row ∧ b = col) ∨ (a = col ∧ b = row) then r else s.cell a b) ∧
      (hasMember t.op.flags AttentionFlag.folder.bit = true ↔
        hasMember s.op.flags AttentionFlag.folder.bit = true ∨ ∃ f, affected (s.folder f)) ∧
      { t with folders := s.folders, gcu := { t.gcu with cells := s.gcu.cells }, op := { t.op with flags := s.op.flags } } =
        seen .setMatrixPair o s)

/-- SET THRESHOLD, SET METERING and SET LOG WARNING in CONFIG, with values in range, write what they name and nothing
else (R97, R107, R142). -/
def Obligations.SettingEditsComplete : Prop :=
  ∀ (s : State) (o : OfficeFrame), s.admits o .tableEdit → s.mc.mode = .config →
    (∀ (group : Byte) (quantity : BitVec 16) (k : Fin 15), group.toNat = k.val + 1 → quantity.toNat ≤ 60000 →
      exec (.setThreshold o group quantity) s = answersOk .setThreshold o []
        { seen .setThreshold o s with
          gcu := { s.gcu with thresholds := s.gcu.thresholds.set k.val quantity.toNat } }) ∧
    (∀ (arms settleMin settleBand settleMax passTenths : Byte) (passFloor : BitVec 16) (amendTenths : Byte)
      (amendFloor : BitVec 16),
      1 ≤ arms.toNat ∧ arms.toNat ≤ 4 → 1 ≤ settleMin.toNat ∧ settleMin.toNat ≤ 15 → settleBand.toNat ≤ 50 →
      settleMin.toNat ≤ settleMax.toNat ∧ settleMax.toNat ≤ 63 → passTenths.toNat ≤ 100 → passFloor.toNat ≤ 1000 →
      passTenths.toNat ≤ amendTenths.toNat ∧ amendTenths.toNat ≤ 200 →
      passFloor.toNat ≤ amendFloor.toNat ∧ amendFloor.toNat ≤ 2000 →
      exec (.setMetering o arms settleMin settleBand settleMax passTenths passFloor amendTenths amendFloor) s =
        answersOk .setMetering o []
          { seen .setMetering o s with
            mr := ⟨arms.toNat, settleMin.toNat, settleBand.toNat, settleMax.toNat, passTenths.toNat, passFloor.toNat,
              amendTenths.toNat, amendFloor.toNat⟩ }) ∧
    (∀ level : BitVec 16, 1 ≤ level.toNat → level.toNat ≤ 1024 →
      exec (.setLogWarning o level) s = answersOk .setLogWarning o []
        { seen .setLogWarning o s with dl := { s.dl with level := level.toNat } })

/-- ACK LOG removes exactly the entries whose sequence it reaches, on a log in order (R140); SET RIGHTS writes the named
cells of the office column and answers the whole column (R151); READ RIGHTS gives the ten cells in their order and the
SKEY level sampled, and changes nothing (R152). That a count of entries travels in 2 bytes and a cell in 1 is log 16. -/
def Obligations.AckLogAndRightsComplete : Prop :=
  ∀ (s : State) (o : OfficeFrame),
    (∀ sequence : BitVec 32, s.LogOk → s.admits o (.grouped .logAck) → sequence.toNat < s.dl.nextSequence →
      let left := s.dl.held.filter (fun e => decide (sequence.toNat < e.sequence))
      exec (.ackLog o sequence) s = answersOk .ackLog o (bytes2 (s.dl.held.length - left.length) ++ bytes2 left.length)
        { seen .ackLog o s with dl := { s.dl with held := left } }) ∧
    (∀ (groups : BitVec 16) (value : Byte) (allow : Bool), s.admits o .supervisorOnly → groups ≠ 0 →
      groups.toNat < 1024 → value = (if allow then 1 else 0) →
      ∃ column : MemberSet 10,
        (∀ k, k < 10 → hasMember column k = if hasMember groups k then allow else hasMember s.rc.allowed k) ∧
        exec (.setRights o groups value) s = answersOk .setRights o
          ((List.range 10).map (fun k => if hasMember column k then 1 else 0))
          { seen .setRights o s with rc := { s.rc with allowed := column } }) ∧
    (s.admits o .read →
      exec (.readRights o) s = answersOk .readRights o
        (([.statusSet, .accountEdit, .folderEdit, .assign, .amend, .finish, .voiding, .logAck, .time, .nodeAdmin]
            : List OperationGroup).map (fun g => if s.allows g then 1 else 0)
          ++ [if o.skey then 1 else 0])
        (seen .readRights o s))

/-- SET LINK in CONFIG writes the three link settings, gives a node that joins or leaves its start values, and lowers
a silence count to the limit (R160); READMIT NODE gives a node its start values and answers the state it held (R167).
That a node state travels in 1 byte is log 16 (DESIGN CHOICE). -/
def Obligations.LinkSettingsComplete : Prop :=
  ∀ (s : State) (o : OfficeFrame),
    (∀ (period : BitVec 16) (silence : Byte) (enrolled : BitVec 16), s.admits o .tableEdit → s.mc.mode = .config →
      100 ≤ period.toNat → period.toNat ≤ 2000 → period.toNat % 50 = 0 → 2 ≤ silence.toNat → silence.toNat ≤ 64 →
      enrolled.toNat < 512 → (∀ b : Fin 8, hasMember enrolled b.val = false → ∀ f, (s.folder f).bay ≠ some b) →
      ∃ t, exec (.setLink o period silence enrolled) s = answersOk .setLink o [] t ∧
        (∀ n, t.node n =
          if hasMember s.rlc.enrolled n.val = hasMember enrolled n.val then
            { s.node n with silence := min (s.node n).silence silence.toNat }
          else ⟨.unknown, 0, 0, none⟩) ∧
        (∀ k, k < 9 → hasMember t.rlc.enrolled k = hasMember enrolled k) ∧
        { t with rlc := { t.rlc with nodes := s.rlc.nodes, enrolled := s.rlc.enrolled } } =
          { seen .setLink o s with rlc := { s.rlc with cyclePeriod := period.toNat, silenceLimit := silence.toNat } }) ∧
    (∀ (node : Byte) (n : Fin 9), s.admits o (.grouped .nodeAdmin) → node.toNat = n.val →
      exec (.readmitNode o node) s = answersOk .readmitNode o (byte1 (s.node n).state.code)
        ((seen .readmitNode o s).setNode n ⟨.unknown, 0, 0, none⟩))

/-! ## The office port, modes and starts -/

/-- The moments of a transaction (R44, R175 to R178; log 3). OSEL falling with the port idle forms the summary byte,
and with the port busy marks the transaction as one that is not taken (R176). OSEL rising after a complete frame
stamps the arrival, with the high-water time then (R53), and makes the port busy; a transaction begun while the port
was busy ends with all-ones bytes and nothing taken, and the handling of the command before it neither ends it nor
admits it. A handling that no command waits for does nothing. The arrival is the clock where nothing fell in between;
that it is at most a second old at the handling, for every state, is the model's reading (log 1, DEDUCED). READ REPLY
shifts the buffer out after its length byte, zero bytes past its end, and replaces nothing (R180); a frame that names
no command is answered FORMAT (R177); a dropped frame changes no record (R175). -/
def Obligations.PortTransactionsComplete : Prop :=
  ∀ (s : State), s.running = true →
    let first := fun n => (s.summaryShown :: List.replicate n 0).take n
    let done := { s.underway with summary := none, risen := none }
    let busy := s.underway.refused = true ∨ s.underway.risen.isSome = true
    let notTaken := fun n => Host.Outcome.next { s with
      out := { s.out with office := List.replicate n 0xFF }, underway := { s.underway with refused := false } }
    let record := match s.op.reply with
      | none => []
      | some r => [0x01, r.tag, r.code] ++ byte1 (resultCodeOf r.result) ++ byte1 r.data.length ++ r.data
    (∀ (i : Instr) (o : OfficeFrame) (n : Nat),
      ((∃ c, isOffice i o c ∧ n = 3 + officeLength c + o.extra) ∨ ∃ code length,
        i = .unknownCommandCode o code length ∧ n = 3 + (if 64 < length.toNat then 0 else length.toNat) + o.extra) →
      (o.moment = .oselFalls → exec i s = .next { s with underway :=
        if s.underway.risen.isSome then { s.underway with refused := true }
        else { s.underway with summary := some (summaryByte s), refused := false } }) ∧
      (o.moment = .oselRises → ¬busy → exec i s = .next { s with underway :=
        { s.underway with summary := some s.summaryShown, risen := some ⟨s.tc.clock, s.tc.highWater⟩ } }) ∧
      (o.moment = .oselRises ∨ o.moment = .atOnce → busy → exec i s = notTaken n) ∧
      (o.moment = .handled → s.underway.risen = none → exec i s = .next s)) ∧
    (s.underway.summary = none → s.summaryShown = summaryByte s) ∧
    (∀ b, s.underway.summary = some b → s.summaryShown = b) ∧
    (s.underway.risen = none → s.officeArrival = s.tc.clock ∧ s.highWaterTaken = s.tc.highWater) ∧
    (∀ n, s.underway.risen = some n → s.highWaterTaken = n.highWater ∧
      (n.second ≤ s.tc.clock → s.tc.clock ≤ n.second + 1 → s.officeArrival = n.second)) ∧
    s.officeArrival ≤ s.tc.clock ∧ s.tc.clock ≤ s.officeArrival + 1 ∧
    (∀ o : OfficeFrame, s.handles o →
      let bytes := [s.summaryShown, 0, 0] ++ (record ++ List.replicate o.extra 0).take o.extra
      exec (.readReply o) s = .next { s with out := { s.out with office := bytes }, underway := done }) ∧
    (∀ (o : OfficeFrame) (code length : Byte), s.handles o →
      exec (.unknownCommandCode o code length) s = .next { s with
        out := { s.out with office := first (3 + (if 64 < length.toNat then 0 else length.toNat) + o.extra) }
        op := { s.op with reply := some ⟨o.tag, code, some .format, []⟩ }
        underway := done }) ∧
    (∀ (bytes : List Byte) (bits : Fin 8),
      (¬busy → exec (.droppedFrame bytes bits) s = .next { s with
        out := { s.out with office := first bytes.length }, underway := done }) ∧
      (busy → exec (.droppedFrame bytes bits) s = notTaken bytes.length)) ∧
    (∀ n : Nat, exec (.busyTransaction n) s = notTaken n)

/-- ACK ATTENTION clears exactly the flags it names (R183), and SET ENABLES writes exactly the enables under its mask
(R184); each answers the set it leaves, and ATTN is asserted exactly while some flag is both set and enabled (R182). -/
def Obligations.AttentionCommandsComplete : Prop :=
  ∀ (s : State) (o : OfficeFrame), s.admits o .portCommand →
    (∀ flags : BitVec 16, flags.toNat < 256 → ∃ left : MemberSet 8,
      (∀ k, k < 8 → hasMember left k = (hasMember s.op.flags k && !hasMember flags k)) ∧
      exec (.ackAttention o flags) s = answersOk .ackAttention o (bytes2 left.toNat)
        { seen .ackAttention o s with op := { s.op with flags := left } }) ∧
    (∀ mask value : BitVec 16, mask.toNat < 256 → value.toNat < 256 → ∃ enables : MemberSet 8,
      (∀ k, k < 8 → hasMember enables k = if hasMember mask k then hasMember value k else hasMember s.op.enables k) ∧
      exec (.setEnables o mask value) s = answersOk .setEnables o (bytes2 enables.toNat)
        { seen .setEnables o s with op := { s.op with enables := enables } }) ∧
    (attnAsserted s = true ↔ ∃ k, hasMember s.op.flags k = true ∧ hasMember s.op.enables k = true)

/-- REQUEST MODE follows the table of R188 row by row, with the entry check of R189; the reply gives the mode and
pending target after it and the folders LOADING. What travels for an absent pending target is a free value (log 10).
That a mode and a count of folders travel in 1 byte each is log 16 (DESIGN CHOICE). -/
def Obligations.RequestModeFollowsItsTable : Prop :=
  ∀ (s : State) (o : OfficeFrame) (target : Byte) (m : Mode), s.admits o .modeRequest → Mode.ofCode target = some m →
    let done := fun (mode : Mode) (pending : Option Mode) =>
      exec (.requestMode o target) s = answersOk .requestMode o
        ([BitVec.ofNat 8 mode.code, pendingByte pending] ++ byte1 s.loadingCount)
        { seen .requestMode o s with mc := { s.mc with mode := mode, pendingTarget := pending } }
    (s.mc.mode ≠ .run → s.mc.pendingTarget = none → m ≠ .run → done m none) ∧
    (s.mc.mode ≠ .run → s.mc.pendingTarget = none → m = .run → s.tc.clockSet = true → done .run none) ∧
    (s.mc.mode ≠ .run → m = .run → s.tc.clockSet = false →
      exec (.requestMode o target) s = refusesWith .requestMode o .noClock s) ∧
    (s.mc.mode = .run → m = .run → done .run none) ∧
    (s.mc.mode = .run → m ≠ .run → s.mc.pendingTarget = none → (∀ f, (s.folder f).state ≠ .loading) → done m none) ∧
    (s.mc.mode = .run → m ≠ .run → s.mc.pendingTarget = none → (∃ f, (s.folder f).state = .loading) →
      done .run (some m)) ∧
    (s.mc.mode = .run → m ≠ .run → s.mc.pendingTarget ≠ none → done .run (some m))

/-- A cold start gives every record its cold value (R195, R198; log 6): a power-on with BKOK low and RESET high, and,
where RESET was held low, the return of RESET (R197); CLEAR ALL in CONFIG does the same and then holds its reply
(R196). That a power-on is taken in every state, a working one included, is the model's choice (log 8), and so is that
the records outside the backup domain keep their values until the start that a RESET held low puts off (log 26, DESIGN
CHOICE). A transaction whose OSEL had fallen and not risen when RESET fell stays one that is not taken; a command that
waited to be handled leaves the port idle (R176, R197; log 3). -/
def Obligations.ColdStartsGiveTheColdState : Prop :=
  ∀ s : State,
    (s.pins.resetLow = false → exec .coldStart s = .next { State.reset with out := s.out, pending := s.pending }) ∧
    (s.pins.resetLow = true → exec .coldStart s = .next { s with
      pins := ⟨true, true, some .cold⟩, underway := ⟨none, false, none, none⟩ }) ∧
    (s.pins.powered = true → s.pins.startOwed = some .cold →
      exec (.warmStart .reset) s = .next { State.reset with
        out := s.out, pending := s.pending
        underway := ⟨none,
          s.underway.refused || (s.underway.summary.isSome && s.underway.risen.isNone), none, none⟩ }) ∧
    ∀ o : OfficeFrame, s.admits o .supervisorOnly → s.mc.mode = .config →
      exec (.clearAll o) s = answersOk .clearAll o []
        { State.reset with
          mc := { State.reset.mc with lastStart := ⟨.cold, .clearAll⟩ }
          pins := s.pins
          underway := ⟨none, s.underway.refused, none, none⟩
          out := (seen .clearAll o s).out
          pending := s.pending }

/-- A warm start keeps the backup domain and rebuilds the rest (R122, R197, R198, R60): CONFIG with nothing pending,
the link and the port at their start values, running compartments interrupted and owed STOPs cleared; then the day's
work if the day has changed (profiles transferred, EXPIRED raised on exactly the ACTIVE accounts it has passed), and
otherwise the recompute of every ACTIVE or SUSPENDED account, the alarm list being empty before either. After it an
attention flag is set exactly where it is RESTART, or FOLDER with an interruption, or ALARM with an account newly
flagged (R181, R198). A power-on with RESET held low waits for RESET (R197). RESET ASSERTED and POWER FAIL change the
pins and discard what is under way (R194, R197): after RESET ASSERTED a transaction whose OSEL has fallen and not
risen is one that is not taken (R176; log 3). That a start is taken in every state, and that RESET returning high
without VDD starts nothing, are the model's choice (log 8, DESIGN CHOICE); so is that POWER FAIL, and a power-on with
RESET held low, leave every record outside the backup domain as it is until the next start (log 26, DESIGN CHOICE),
where R194 speaks of the backup domain alone; how VDD and RESET gate the rest is log 7 (DEDUCED). -/
def Obligations.WarmStartAndPowerEventsComplete : Prop :=
  ∀ s : State,
    let nothing : Underway := ⟨none, false, none, none⟩
    let cut : Underway := ⟨none,
      s.underway.refused || (s.underway.summary.isSome && s.underway.risen.isNone), none, none⟩
    exec .resetAsserted s = .next { s with pins := { s.pins with resetLow := true }, underway := cut } ∧
    exec .powerFail s = .next { s with
      pins := { s.pins with powered := false, startOwed := none }, underway := nothing } ∧
    (s.pins.resetLow = true → exec (.warmStart .power) s = .next { s with
      pins := ⟨true, true, some .warm⟩, underway := nothing }) ∧
    (s.pins.powered = false → exec (.warmStart .reset) s = .next { s with pins := { s.pins with resetLow := false } }) ∧
    ∀ cause : WarmCause,
      (match cause with
        | .power => s.pins.resetLow = false
        | .reset => s.pins.powered = true ∧ s.pins.startOwed ≠ some .cold) →
      let interrupted := ∃ f, (s.folder f).compartments.any Compartment.inProgress = true
      let restarted : State := { s with
        pins := ⟨true, false, none⟩
        underway := match cause with
          | .power => nothing
          | .reset => cut
        mc := ⟨.config, none, ⟨.warm, match cause with
          | .power => .power
          | .reset => if s.pins.startOwed = some .warm then .power else .reset⟩⟩
        op := ⟨none, if interrupted then 0b00010010 else 0b00000010, 0b11111111⟩
        rc := ⟨s.rc.allowed, []⟩
        rlc := { s.rlc with
          nodes := Vector.replicate 9 NodeEntry.start, taken := 0, queue := [], reserved := 0, cycle := 0 }
        tc := { s.tc with minuteDue := false }
        hu := { s.hu with alarms := [] }
        folders := s.folders.map (fun x =>
          { x with
            unread := x.unread || x.compartments.any Compartment.inProgress
            compartments := x.compartments.map (fun c =>
              { c with loading := if c.inProgress then .interrupted else c.loading, owedStop := none }) }) }
      ∃ t, exec (.warmStart cause) s = .next t ∧
        (s.today ≠ s.tc.treatedDay → DayWorked restarted t) ∧
        (s.today = s.tc.treatedDay → AllRecomputed restarted t) ∧
        t.gcu = s.gcu ∧ t.mr = s.mr ∧ t.dl = s.dl ∧ t.rc.allowed = s.rc.allowed ∧
        (∀ f, (t.folder f).state = (s.folder f).state ∧ (t.folder f).bay = (s.folder f).bay) ∧
        (∀ a : AttentionFlag, hasMember t.op.flags a.bit = true ↔
          a = .restart ∨ (a = .folder ∧ interrupted) ∨ (a = .alarm ∧ ∃ i, t.account i ≠ s.account i))

/-! ## The rack link -/

/-- An accepted CARD (R74, R12): an ASSIGNED folder becomes LOADING with each compartment PLANNED or EMPTY from its
plan, a LOADING folder is left as it is, and the account goes on DUTY at the frame's arrival. A mode change holds new
loading back (R82): at an ASSIGNED folder the CARD is refused with MODE while a change is pending, and where one was
pending at its arrival and has taken the part out of RUN since; it is taken again in RUN with none pending. That the
end of the slot and the arrival are the moments that count is log 30 (DEDUCED). -/
def Obligations.CardComplete : Prop :=
  ∀ (s : State) (l : LinkFrame) (tanker number : BitVec 32) (b : Fin 8) (f : Fin 16) (i : Fin 64),
    s.servesFrame l.node l.moment → bayOfNode l.node = some b → s.folderOfBay b = some f → s.findCard number.toNat = some i →
    (s.folder f).tanker = tanker.toNat → i ∈ (s.folder f).drivers → (s.account i).state = .active →
    let x := s.folder f
    let u := frameTaken l.node s
    let arrival := s.frameArrival l.node
    let heldBack := s.mc.pendingTarget ≠ none ∨ (s.arrivalPending l.node = true ∧ s.mc.mode ≠ .run)
    (x.state = .assigned → ¬heldBack →
      exec (.card l tanker number) s = repliesWith .card l .accept (.folder f)
        (changeStatus i .duty arrival (u.setFolder f
          { x with
            state := .loading
            compartments := x.compartments.map (fun c =>
              { c with loading := if c.substance.isSome then .planned else .empty }) })).state) ∧
    (x.state = .assigned → heldBack →
      exec (.card l tanker number) s = repliesWith .card l (.deny .mode) .none u) ∧
    (x.state = .loading →
      exec (.card l tanker number) s = repliesWith .card l .accept (.folder f) (changeStatus i .duty arrival u).state)

/-- START, TOTAL, END and DONE from the bay of a LOADING folder, where they are accepted (R108 to R119); a TOTAL below
metered is counted in silence (R112). Each writes its own compartment alone; DONE ends the loading (R75, R191). -/
def Obligations.BayRequestsComplete : Prop :=
  ∀ (s : State) (l : LinkFrame) (folder compartment : Byte) (b : Fin 8) (f : Fin 16),
    s.servesFrame l.node l.moment → s.loadsAt l b f folder →
    let x := s.folder f
    let u := frameTaken l.node s
    let k := compartment.toNat
    let written := fun (d : Compartment) => u.setFolder f { x with compartments := x.compartments.set k d }
    (∀ c, x.compartments[k]? = some c →
      (c.loading = .planned → s.mc.pendingTarget = none →
        (x.compartments.filter Compartment.inProgress).length < s.mr.arms →
        exec (.start l folder compartment) s =
          repliesWith .start l .permit (.compartment k) (written { c with loading := .permitted })) ∧
      (∀ (litres : BitVec 16) (flowing : Byte) (flow : Bool), flowing = (if flow then 1 else 0) → c.inProgress = true →
        (c.metered ≤ litres.toNat → exec (.total l folder compartment litres flowing) s = servesSilently
          (written (takeTotal s.mr (s.fillLimit c) b (s.frameArrival l.node) litres.toNat flow c))) ∧
        (litres.toNat < c.metered → exec (.total l folder compartment litres flowing) s = servesSilently
          (written { c with rejectedReports := min 255 (c.rejectedReports + 1) }))) ∧
      (c.loading = .settled →
        exec (.endCompartment l folder compartment) s = servesSilently (written { c with loading := .loaded })) ∧
      (c.loading = .permitted →
        exec (.endCompartment l folder compartment) s = servesSilently (written { c with loading := .skipped })) ∧
      (c.loading = .flowing ∨ c.loading = .stopped →
        exec (.endCompartment l folder compartment) s = servesSilently (written { c with loading := .unsettled }))) ∧
    (x.compartments.all (fun c => !c.inProgress) = true →
      let y := evaluated { x with bay := none, compartments := x.compartments.map (fun c => reconcile s.mr (skipPlanned c)) }
      let v := setAttention .folder (u.setFolder f y)
      exec (.doneLoading l folder) s = repliesWith .done l .accept (.folderState y.state)
        (match s.mc.pendingTarget with
          | some m =>
            if ∀ g, g ≠ f → (s.folder g).state ≠ .loading then
              setAttention .mode { v with mc := { v.mc with mode := m, pendingTarget := none } }
            else v
          | none => v))

/-- ENTRY puts the card's account on DUTY (R134); RELEASE of a READY folder is granted with an empty reason set and
logged (R130, R137), the entry holding the fields of R136, refused with the set otherwise (R131); EXIT of a RELEASED
folder puts the primary on DRIVE and the second on DUTY and frees the folder (R133, R79). That the records a RELEASE
is tested on are those at the end of its slot is log 31 (DEDUCED). -/
def Obligations.GateRequestsComplete : Prop :=
  ∀ (s : State) (l : LinkFrame), s.servesFrame l.node l.moment → l.node = 8 →
    let u := frameTaken l.node s
    let arrival := s.frameArrival l.node
    (∀ (number : BitVec 32) (i : Fin 64), number ≠ 0 → s.findCard number.toNat = some i →
      exec (.entry l number) s = repliesWith .entry l .accept (.account i) (changeStatus i .duty arrival u).state) ∧
    (∀ (folder : Byte) (f : Fin 16), folder.toNat = f.val →
      let x := s.folder f
      (∀ placards : BitVec 16, hasMember placards 0 = false → x.state = .ready →
        let reasons := releaseReasons s x placards (arrival / 60)
        let entry : LogEntry := {
          sequence := s.dl.nextSequence
          kind := if x.overrideMark then .dispatchOverride else .dispatch
          time := arrival
          folder := f
          tanker := x.tanker
          primaryCard := (s.account x.primary).card
          secondCard := x.second.bind (fun i => (s.account i).card)
          plannedDrive := x.plannedDrive
          plannedDuty := x.plannedDuty
          sPrimary := some (s.figures x.primary (arrival / 60)).shiftAllowance
          sSecond := x.second.map (fun i => (s.figures i (arrival / 60)).shiftAllowance)
          placards := s.placardSet Compartment.metered x.compartments
          compartments := x.compartments.zipIdx.map (fun p =>
            ⟨p.2, p.1.substance, p.1.declared, p.1.metered, p.1.result⟩) }
        (reasons = [] → exec (.release l folder placards) s = repliesWith .release l .grant (.sequence s.dl.nextSequence)
          { u.setFolder f { x with state := .released, releaseTime := some arrival } with
            dl := { s.dl with held := s.dl.held ++ [entry], nextSequence := s.dl.nextSequence + 1 }
            tc := { s.tc with highWater := max s.tc.highWater arrival }
            op := { u.op with flags :=
              if s.dl.level ≤ s.dl.held.length + 1 then withMember u.op.flags AttentionFlag.log.bit else u.op.flags } }) ∧
        (reasons ≠ [] → exec (.release l folder placards) s =
          repliesWith .release l (.refuse (reasonSet reasons)) (.folderState .ready)
            (u.setFolder f { x with lastRefusal := reasonSet reasons }))) ∧
      (x.state = .released →
        let driven := (changeStatus x.primary .drive arrival u).state
        let off := match x.second with
          | some i => (changeStatus i .duty arrival driven).state
          | none => driven
        exec (.exit l folder) s = repliesWith .exit l .accept (.folder f) (freeFolder f off)))

/-- A slot's frame: its arrival is stamped with the mode that decides its taking and whether a change is pending then,
and nothing else happens (R44, R82, R168, R188); at the end of its slot a good frame writes the node's entry by the
table of R163 and, entering WARNING, sets NODE (R166), and one that is IDLE, arrived outside RUN, or finds no free
place does nothing else (R168); that a malformed frame of kind code 0x00 counts as IDLE is log 19 (DEDUCED). A damaged
frame (R164) and an empty slot (R165) write the entry by their tables and hand on an entry into WARNING, ABSENT or
ISOLATED (R166, R121); the slots of a node not enrolled or ISOLATED are ignored (R161); a taken malformed frame is
answered DENY FORMAT in class 3 under its tag, a free value where it is too short to hold one (R161; log 13). That the
frame of a slot whose reception came in no earlier step arrives, with its mode and pending change, at the end of the
slot, and that no arrival is later than the clock, are the model's (log 1, DESIGN CHOICE and DEDUCED); so is that the
free place is the one at the end of the slot (log 18, DEDUCED). -/
def Obligations.SlotHealthComplete : Prop :=
  ∀ (s : State) (n : Fin 9), s.running = true →
    let e := s.node n
    let closed := { s with underway := { s.underway with frame := none } }
    let slotOf := fun (i : Instr) (m : SlotMoment) =>
      (∃ l k fields, linkParts i = some (l, k, fields) ∧ l.node = n ∧ l.moment = m) ∨ (∃ body, i = .malformedFrame n m body)
    (∀ i, slotOf i .received → exec i s = .next
      { s with underway := { s.underway with frame := some ⟨n, s.tc.clock, s.mc.mode, s.mc.pendingTarget.isSome⟩ } }) ∧
    ((∀ a, s.underway.frame = some a → a.node ≠ n) →
      s.frameArrival n = s.tc.clock ∧ s.arrivalMode n = s.mc.mode ∧ s.arrivalPending n = s.mc.pendingTarget.isSome) ∧
    (∀ a, s.underway.frame = some a → a.node = n →
      s.frameArrival n = min a.second s.tc.clock ∧ s.arrivalMode n = a.mode ∧ s.arrivalPending n = a.changePending) ∧
    (s.listens n = false → ∀ i, slotOf i .slotEnd ∨ i = .damagedFrame n ∨ i = .emptySlot n → exec i s = .next closed) ∧
    (s.listens n = true →
      (let faults := e.faults - 1
       let state : NodeState := match e.state with
         | .unknown | .absent => if 96 ≤ faults then .warning else .present
         | .present => .present
         | .warning => if faults < 64 then .present else .warning
         | .isolated => .isolated
       heard n s = { closed.setNode n ⟨state, faults, 0, some (s.frameArrival n)⟩ with
         op := { s.op with flags :=
           if state = .warning ∧ e.state ≠ .warning then withMember s.op.flags AttentionFlag.node.bit else s.op.flags } }) ∧
      (∀ l : LinkFrame, l.node = n → l.moment = .slotEnd → exec (.idle l) s = .next (heard n s)) ∧
      (∀ body : List Byte, body.head? = some 0x00 → exec (.malformedFrame n .slotEnd body) s = .next (heard n s)) ∧
      (s.arrivalMode n ≠ .run ∨ 16 ≤ s.rlc.queue.length + s.rlc.reserved →
        ∀ i, slotOf i .slotEnd → exec i s = .next (heard n s)) ∧
      (∀ (m : SlotMoment) (body : List Byte), s.servesFrame n m → body.head? ≠ some 0x00 →
        exec (.malformedFrame n m body) s =
          (let u := frameTaken n s
           .next { u with rlc := { u.rlc with
             queue := joinQueue ⟨n, (body[1]?).getD Config.missingTag, .deny .format, .none, .three⟩ u.rlc.queue
             reserved := u.rlc.reserved - 1 } })) ∧
      (let faults := min 255 (e.faults + 8)
       exec (.damagedFrame n) s = .next (updateNode n
         { e with
           faults := faults
           state := if faults = 255 then .isolated
             else if 96 ≤ faults ∧ (e.state = .unknown ∨ e.state = .present) then .warning else e.state } closed)) ∧
      (let silence := if e.silence = s.rlc.silenceLimit then e.silence else e.silence + 1
       exec (.emptySlot n) s = .next (updateNode n
         { e with silence := silence, state := if silence = s.rlc.silenceLimit then .absent else e.state } closed))) ∧
    (∀ entry : NodeEntry,
      let t := updateNode n entry s
      let enters := fun st => entry.state = st ∧ e.state ≠ st
      t.node n = entry ∧
      (hasMember t.op.flags AttentionFlag.node.bit = true ↔ hasMember s.op.flags AttentionFlag.node.bit = true ∨
        enters .warning ∨ enters .absent ∨ enters .isolated) ∧
      (∀ b f, bayOfNode n = some b → enters .absent ∨ enters .isolated → (s.folder f).state = .loading →
        (s.folder f).bay = some b → (∀ g, g ≠ f → (s.folder g).bay ≠ some b) →
        (t.folder f).compartments = (s.folder f).compartments.map (fun c =>
          if c.inProgress then { c with loading := .interrupted } else c) ∧
        ((s.folder f).compartments.any Compartment.inProgress = true →
          (t.folder f).unread = true ∧ hasMember t.op.flags AttentionFlag.folder.bit = true)))

/-- A beacon carries the owed STOPs first, by folder and compartment, then replies from the head of the queue, 12
records at most; what it carries is cleared or leaves the queue, what does not fit stays, the taken set starts empty
and the cycle number rises by one (R159, R168, R171). The line driver may be active for it (R197). That the taken set
is carried whatever the mode, the first beacon after the mode has left RUN among them, is the model's choice (log 29). -/
def Obligations.BeaconComplete : Prop :=
  ∀ s : State, s.running = true → ∃ (t : State) (beacon : Beacon), exec .beacon s = .next t ∧
    s.lkdeAllows true = true ∧ t.out = { s.out with beacon := some beacon } ∧
    beacon.cycle = s.rlc.cycle ∧ beacon.mode = s.mc.mode ∧ beacon.taken = s.rlc.taken ∧
    beacon.records = (s.owedStops ++ s.rlc.queue.map BeaconRecord.reply).take 12 ∧
    t.owedStops = s.owedStops.drop 12 ∧
    t.rlc = { s.rlc with queue := s.rlc.queue.drop (12 - s.owedStops.length), taken := 0, cycle := s.rlc.cycle + 1 } ∧
    (∀ f, { t.folder f with compartments := (s.folder f).compartments } = s.folder f ∧
      (t.folder f).compartments.length = (s.folder f).compartments.length ∧
      ∀ (k : Nat) (c d : Compartment), (s.folder f).compartments[k]? = some c → (t.folder f).compartments[k]? = some d →
        d = c ∨ d = { c with owedStop := none }) ∧
    { t with folders := s.folders, rlc := s.rlc, out := s.out } =
      { s with underway := { s.underway with frame := none } }
end

