-- ==== Sys2Proof/Laws/State.lean ====
section
/-! SUPPORT. One lemma per field of State for every named update, and reading back what an update wrote. -/

namespace Sys2Proof.Machine

/-- A move of the office port: what is under way there, and what it shifted out. Every moment of a transaction before its
command reaches an owner is one, or none (`transaction_cases`). -/
def State.portMoved (s : State) (summary : Option Byte) (refused : Bool) (risen : Option Taking) (bytes : List Byte) : State :=
  { s with
    out := { s.out with office := bytes }
    underway := { s.underway with summary := summary, refused := refused, risen := risen } }

variable (s : State)

/-! `setAccount` -/

@[simp] theorem setAccount_tc (i : Fin 64) (a : Account) : (s.setAccount i a).tc = s.tc := rfl
@[simp] theorem setAccount_accounts (i : Fin 64) (a : Account) : (s.setAccount i a).accounts = s.accounts.set i a := rfl
@[simp] theorem setAccount_hu (i : Fin 64) (a : Account) : (s.setAccount i a).hu = s.hu := rfl
@[simp] theorem setAccount_folders (i : Fin 64) (a : Account) : (s.setAccount i a).folders = s.folders := rfl
@[simp] theorem setAccount_gcu (i : Fin 64) (a : Account) : (s.setAccount i a).gcu = s.gcu := rfl
@[simp] theorem setAccount_mr (i : Fin 64) (a : Account) : (s.setAccount i a).mr = s.mr := rfl
@[simp] theorem setAccount_dl (i : Fin 64) (a : Account) : (s.setAccount i a).dl = s.dl := rfl
@[simp] theorem setAccount_rc (i : Fin 64) (a : Account) : (s.setAccount i a).rc = s.rc := rfl
@[simp] theorem setAccount_rlc (i : Fin 64) (a : Account) : (s.setAccount i a).rlc = s.rlc := rfl
@[simp] theorem setAccount_op (i : Fin 64) (a : Account) : (s.setAccount i a).op = s.op := rfl
@[simp] theorem setAccount_mc (i : Fin 64) (a : Account) : (s.setAccount i a).mc = s.mc := rfl
@[simp] theorem setAccount_pins (i : Fin 64) (a : Account) : (s.setAccount i a).pins = s.pins := rfl
@[simp] theorem setAccount_underway (i : Fin 64) (a : Account) : (s.setAccount i a).underway = s.underway := rfl
@[simp] theorem setAccount_out (i : Fin 64) (a : Account) : (s.setAccount i a).out = s.out := rfl
@[simp] theorem setAccount_pending (i : Fin 64) (a : Account) : (s.setAccount i a).pending = s.pending := rfl

/-! `setFolder` -/

@[simp] theorem setFolder_tc (f : Fin 16) (x : Folder) : (s.setFolder f x).tc = s.tc := rfl
@[simp] theorem setFolder_accounts (f : Fin 16) (x : Folder) : (s.setFolder f x).accounts = s.accounts := rfl
@[simp] theorem setFolder_hu (f : Fin 16) (x : Folder) : (s.setFolder f x).hu = s.hu := rfl
@[simp] theorem setFolder_folders (f : Fin 16) (x : Folder) : (s.setFolder f x).folders = s.folders.set f x := rfl
@[simp] theorem setFolder_gcu (f : Fin 16) (x : Folder) : (s.setFolder f x).gcu = s.gcu := rfl
@[simp] theorem setFolder_mr (f : Fin 16) (x : Folder) : (s.setFolder f x).mr = s.mr := rfl
@[simp] theorem setFolder_dl (f : Fin 16) (x : Folder) : (s.setFolder f x).dl = s.dl := rfl
@[simp] theorem setFolder_rc (f : Fin 16) (x : Folder) : (s.setFolder f x).rc = s.rc := rfl
@[simp] theorem setFolder_rlc (f : Fin 16) (x : Folder) : (s.setFolder f x).rlc = s.rlc := rfl
@[simp] theorem setFolder_op (f : Fin 16) (x : Folder) : (s.setFolder f x).op = s.op := rfl
@[simp] theorem setFolder_mc (f : Fin 16) (x : Folder) : (s.setFolder f x).mc = s.mc := rfl
@[simp] theorem setFolder_pins (f : Fin 16) (x : Folder) : (s.setFolder f x).pins = s.pins := rfl
@[simp] theorem setFolder_underway (f : Fin 16) (x : Folder) : (s.setFolder f x).underway = s.underway := rfl
@[simp] theorem setFolder_out (f : Fin 16) (x : Folder) : (s.setFolder f x).out = s.out := rfl
@[simp] theorem setFolder_pending (f : Fin 16) (x : Folder) : (s.setFolder f x).pending = s.pending := rfl

/-! `setNode` -/

@[simp] theorem setNode_tc (n : Fin 9) (e : NodeEntry) : (s.setNode n e).tc = s.tc := rfl
@[simp] theorem setNode_accounts (n : Fin 9) (e : NodeEntry) : (s.setNode n e).accounts = s.accounts := rfl
@[simp] theorem setNode_hu (n : Fin 9) (e : NodeEntry) : (s.setNode n e).hu = s.hu := rfl
@[simp] theorem setNode_folders (n : Fin 9) (e : NodeEntry) : (s.setNode n e).folders = s.folders := rfl
@[simp] theorem setNode_gcu (n : Fin 9) (e : NodeEntry) : (s.setNode n e).gcu = s.gcu := rfl
@[simp] theorem setNode_mr (n : Fin 9) (e : NodeEntry) : (s.setNode n e).mr = s.mr := rfl
@[simp] theorem setNode_dl (n : Fin 9) (e : NodeEntry) : (s.setNode n e).dl = s.dl := rfl
@[simp] theorem setNode_rc (n : Fin 9) (e : NodeEntry) : (s.setNode n e).rc = s.rc := rfl
@[simp] theorem setNode_rlc (n : Fin 9) (e : NodeEntry) : (s.setNode n e).rlc = { s.rlc with nodes := s.rlc.nodes.set n e } := rfl
@[simp] theorem setNode_op (n : Fin 9) (e : NodeEntry) : (s.setNode n e).op = s.op := rfl
@[simp] theorem setNode_mc (n : Fin 9) (e : NodeEntry) : (s.setNode n e).mc = s.mc := rfl
@[simp] theorem setNode_pins (n : Fin 9) (e : NodeEntry) : (s.setNode n e).pins = s.pins := rfl
@[simp] theorem setNode_underway (n : Fin 9) (e : NodeEntry) : (s.setNode n e).underway = s.underway := rfl
@[simp] theorem setNode_out (n : Fin 9) (e : NodeEntry) : (s.setNode n e).out = s.out := rfl
@[simp] theorem setNode_pending (n : Fin 9) (e : NodeEntry) : (s.setNode n e).pending = s.pending := rfl

/-! `setAlarms` -/

@[simp] theorem setAlarms_tc (l : List AlarmEntry) : (s.setAlarms l).tc = s.tc := rfl
@[simp] theorem setAlarms_accounts (l : List AlarmEntry) : (s.setAlarms l).accounts = s.accounts := rfl
@[simp] theorem setAlarms_hu (l : List AlarmEntry) : (s.setAlarms l).hu = { s.hu with alarms := l } := rfl
@[simp] theorem setAlarms_folders (l : List AlarmEntry) : (s.setAlarms l).folders = s.folders := rfl
@[simp] theorem setAlarms_gcu (l : List AlarmEntry) : (s.setAlarms l).gcu = s.gcu := rfl
@[simp] theorem setAlarms_mr (l : List AlarmEntry) : (s.setAlarms l).mr = s.mr := rfl
@[simp] theorem setAlarms_dl (l : List AlarmEntry) : (s.setAlarms l).dl = s.dl := rfl
@[simp] theorem setAlarms_rc (l : List AlarmEntry) : (s.setAlarms l).rc = s.rc := rfl
@[simp] theorem setAlarms_rlc (l : List AlarmEntry) : (s.setAlarms l).rlc = s.rlc := rfl
@[simp] theorem setAlarms_op (l : List AlarmEntry) : (s.setAlarms l).op = s.op := rfl
@[simp] theorem setAlarms_mc (l : List AlarmEntry) : (s.setAlarms l).mc = s.mc := rfl
@[simp] theorem setAlarms_pins (l : List AlarmEntry) : (s.setAlarms l).pins = s.pins := rfl
@[simp] theorem setAlarms_underway (l : List AlarmEntry) : (s.setAlarms l).underway = s.underway := rfl
@[simp] theorem setAlarms_out (l : List AlarmEntry) : (s.setAlarms l).out = s.out := rfl
@[simp] theorem setAlarms_pending (l : List AlarmEntry) : (s.setAlarms l).pending = s.pending := rfl

/-! `setMode` -/

@[simp] theorem setMode_tc (m : Mode) : (s.setMode m).tc = s.tc := rfl
@[simp] theorem setMode_accounts (m : Mode) : (s.setMode m).accounts = s.accounts := rfl
@[simp] theorem setMode_hu (m : Mode) : (s.setMode m).hu = s.hu := rfl
@[simp] theorem setMode_folders (m : Mode) : (s.setMode m).folders = s.folders := rfl
@[simp] theorem setMode_gcu (m : Mode) : (s.setMode m).gcu = s.gcu := rfl
@[simp] theorem setMode_mr (m : Mode) : (s.setMode m).mr = s.mr := rfl
@[simp] theorem setMode_dl (m : Mode) : (s.setMode m).dl = s.dl := rfl
@[simp] theorem setMode_rc (m : Mode) : (s.setMode m).rc = s.rc := rfl
@[simp] theorem setMode_rlc (m : Mode) : (s.setMode m).rlc = s.rlc := rfl
@[simp] theorem setMode_op (m : Mode) : (s.setMode m).op = s.op := rfl
@[simp] theorem setMode_mc (m : Mode) : (s.setMode m).mc = { s.mc with mode := m } := rfl
@[simp] theorem setMode_pins (m : Mode) : (s.setMode m).pins = s.pins := rfl
@[simp] theorem setMode_underway (m : Mode) : (s.setMode m).underway = s.underway := rfl
@[simp] theorem setMode_out (m : Mode) : (s.setMode m).out = s.out := rfl
@[simp] theorem setMode_pending (m : Mode) : (s.setMode m).pending = s.pending := rfl

/-! `setPendingTarget` -/

@[simp] theorem setPendingTarget_tc (t : Option Mode) : (s.setPendingTarget t).tc = s.tc := rfl
@[simp] theorem setPendingTarget_accounts (t : Option Mode) : (s.setPendingTarget t).accounts = s.accounts := rfl
@[simp] theorem setPendingTarget_hu (t : Option Mode) : (s.setPendingTarget t).hu = s.hu := rfl
@[simp] theorem setPendingTarget_folders (t : Option Mode) : (s.setPendingTarget t).folders = s.folders := rfl
@[simp] theorem setPendingTarget_gcu (t : Option Mode) : (s.setPendingTarget t).gcu = s.gcu := rfl
@[simp] theorem setPendingTarget_mr (t : Option Mode) : (s.setPendingTarget t).mr = s.mr := rfl
@[simp] theorem setPendingTarget_dl (t : Option Mode) : (s.setPendingTarget t).dl = s.dl := rfl
@[simp] theorem setPendingTarget_rc (t : Option Mode) : (s.setPendingTarget t).rc = s.rc := rfl
@[simp] theorem setPendingTarget_rlc (t : Option Mode) : (s.setPendingTarget t).rlc = s.rlc := rfl
@[simp] theorem setPendingTarget_op (t : Option Mode) : (s.setPendingTarget t).op = s.op := rfl
@[simp] theorem setPendingTarget_mc (t : Option Mode) : (s.setPendingTarget t).mc = { s.mc with pendingTarget := t } := rfl
@[simp] theorem setPendingTarget_pins (t : Option Mode) : (s.setPendingTarget t).pins = s.pins := rfl
@[simp] theorem setPendingTarget_underway (t : Option Mode) : (s.setPendingTarget t).underway = s.underway := rfl
@[simp] theorem setPendingTarget_out (t : Option Mode) : (s.setPendingTarget t).out = s.out := rfl
@[simp] theorem setPendingTarget_pending (t : Option Mode) : (s.setPendingTarget t).pending = s.pending := rfl

/-! `setLastStart` -/

@[simp] theorem setLastStart_tc (k : StartKind) (c : StartCause) : (s.setLastStart k c).tc = s.tc := rfl
@[simp] theorem setLastStart_accounts (k : StartKind) (c : StartCause) : (s.setLastStart k c).accounts = s.accounts := rfl
@[simp] theorem setLastStart_hu (k : StartKind) (c : StartCause) : (s.setLastStart k c).hu = s.hu := rfl
@[simp] theorem setLastStart_folders (k : StartKind) (c : StartCause) : (s.setLastStart k c).folders = s.folders := rfl
@[simp] theorem setLastStart_gcu (k : StartKind) (c : StartCause) : (s.setLastStart k c).gcu = s.gcu := rfl
@[simp] theorem setLastStart_mr (k : StartKind) (c : StartCause) : (s.setLastStart k c).mr = s.mr := rfl
@[simp] theorem setLastStart_dl (k : StartKind) (c : StartCause) : (s.setLastStart k c).dl = s.dl := rfl
@[simp] theorem setLastStart_rc (k : StartKind) (c : StartCause) : (s.setLastStart k c).rc = s.rc := rfl
@[simp] theorem setLastStart_rlc (k : StartKind) (c : StartCause) : (s.setLastStart k c).rlc = s.rlc := rfl
@[simp] theorem setLastStart_op (k : StartKind) (c : StartCause) : (s.setLastStart k c).op = s.op := rfl
@[simp] theorem setLastStart_mc (k : StartKind) (c : StartCause) : (s.setLastStart k c).mc = { s.mc with lastStart := ⟨k, c⟩ } := rfl
@[simp] theorem setLastStart_pins (k : StartKind) (c : StartCause) : (s.setLastStart k c).pins = s.pins := rfl
@[simp] theorem setLastStart_underway (k : StartKind) (c : StartCause) : (s.setLastStart k c).underway = s.underway := rfl
@[simp] theorem setLastStart_out (k : StartKind) (c : StartCause) : (s.setLastStart k c).out = s.out := rfl
@[simp] theorem setLastStart_pending (k : StartKind) (c : StartCause) : (s.setLastStart k c).pending = s.pending := rfl

/-! `setRunning` -/

@[simp] theorem setRunning_tc : s.setRunning.tc = s.tc := rfl
@[simp] theorem setRunning_accounts : s.setRunning.accounts = s.accounts := rfl
@[simp] theorem setRunning_hu : s.setRunning.hu = s.hu := rfl
@[simp] theorem setRunning_folders : s.setRunning.folders = s.folders := rfl
@[simp] theorem setRunning_gcu : s.setRunning.gcu = s.gcu := rfl
@[simp] theorem setRunning_mr : s.setRunning.mr = s.mr := rfl
@[simp] theorem setRunning_dl : s.setRunning.dl = s.dl := rfl
@[simp] theorem setRunning_rc : s.setRunning.rc = s.rc := rfl
@[simp] theorem setRunning_rlc : s.setRunning.rlc = s.rlc := rfl
@[simp] theorem setRunning_op : s.setRunning.op = s.op := rfl
@[simp] theorem setRunning_mc : s.setRunning.mc = s.mc := rfl
@[simp] theorem setRunning_pins : s.setRunning.pins = ⟨true, false, none⟩ := rfl
@[simp] theorem setRunning_underway : s.setRunning.underway = s.underway := rfl
@[simp] theorem setRunning_out : s.setRunning.out = s.out := rfl
@[simp] theorem setRunning_pending : s.setRunning.pending = s.pending := rfl

/-! `raiseHighWater` -/

@[simp] theorem raiseHighWater_tc (n : Nat) : (s.raiseHighWater n).tc = { s.tc with highWater := max s.tc.highWater n } := rfl
@[simp] theorem raiseHighWater_accounts (n : Nat) : (s.raiseHighWater n).accounts = s.accounts := rfl
@[simp] theorem raiseHighWater_hu (n : Nat) : (s.raiseHighWater n).hu = s.hu := rfl
@[simp] theorem raiseHighWater_folders (n : Nat) : (s.raiseHighWater n).folders = s.folders := rfl
@[simp] theorem raiseHighWater_gcu (n : Nat) : (s.raiseHighWater n).gcu = s.gcu := rfl
@[simp] theorem raiseHighWater_mr (n : Nat) : (s.raiseHighWater n).mr = s.mr := rfl
@[simp] theorem raiseHighWater_dl (n : Nat) : (s.raiseHighWater n).dl = s.dl := rfl
@[simp] theorem raiseHighWater_rc (n : Nat) : (s.raiseHighWater n).rc = s.rc := rfl
@[simp] theorem raiseHighWater_rlc (n : Nat) : (s.raiseHighWater n).rlc = s.rlc := rfl
@[simp] theorem raiseHighWater_op (n : Nat) : (s.raiseHighWater n).op = s.op := rfl
@[simp] theorem raiseHighWater_mc (n : Nat) : (s.raiseHighWater n).mc = s.mc := rfl
@[simp] theorem raiseHighWater_pins (n : Nat) : (s.raiseHighWater n).pins = s.pins := rfl
@[simp] theorem raiseHighWater_underway (n : Nat) : (s.raiseHighWater n).underway = s.underway := rfl
@[simp] theorem raiseHighWater_out (n : Nat) : (s.raiseHighWater n).out = s.out := rfl
@[simp] theorem raiseHighWater_pending (n : Nat) : (s.raiseHighWater n).pending = s.pending := rfl

/-! `setTreatedDay` -/

@[simp] theorem setTreatedDay_tc (d : Nat) : (s.setTreatedDay d).tc = { s.tc with treatedDay := d } := rfl
@[simp] theorem setTreatedDay_accounts (d : Nat) : (s.setTreatedDay d).accounts = s.accounts := rfl
@[simp] theorem setTreatedDay_hu (d : Nat) : (s.setTreatedDay d).hu = s.hu := rfl
@[simp] theorem setTreatedDay_folders (d : Nat) : (s.setTreatedDay d).folders = s.folders := rfl
@[simp] theorem setTreatedDay_gcu (d : Nat) : (s.setTreatedDay d).gcu = s.gcu := rfl
@[simp] theorem setTreatedDay_mr (d : Nat) : (s.setTreatedDay d).mr = s.mr := rfl
@[simp] theorem setTreatedDay_dl (d : Nat) : (s.setTreatedDay d).dl = s.dl := rfl
@[simp] theorem setTreatedDay_rc (d : Nat) : (s.setTreatedDay d).rc = s.rc := rfl
@[simp] theorem setTreatedDay_rlc (d : Nat) : (s.setTreatedDay d).rlc = s.rlc := rfl
@[simp] theorem setTreatedDay_op (d : Nat) : (s.setTreatedDay d).op = s.op := rfl
@[simp] theorem setTreatedDay_mc (d : Nat) : (s.setTreatedDay d).mc = s.mc := rfl
@[simp] theorem setTreatedDay_pins (d : Nat) : (s.setTreatedDay d).pins = s.pins := rfl
@[simp] theorem setTreatedDay_underway (d : Nat) : (s.setTreatedDay d).underway = s.underway := rfl
@[simp] theorem setTreatedDay_out (d : Nat) : (s.setTreatedDay d).out = s.out := rfl
@[simp] theorem setTreatedDay_pending (d : Nat) : (s.setTreatedDay d).pending = s.pending := rfl

/-! `setMinuteDue` -/

@[simp] theorem setMinuteDue_tc (d : Bool) : (s.setMinuteDue d).tc = { s.tc with minuteDue := d } := rfl
@[simp] theorem setMinuteDue_accounts (d : Bool) : (s.setMinuteDue d).accounts = s.accounts := rfl
@[simp] theorem setMinuteDue_hu (d : Bool) : (s.setMinuteDue d).hu = s.hu := rfl
@[simp] theorem setMinuteDue_folders (d : Bool) : (s.setMinuteDue d).folders = s.folders := rfl
@[simp] theorem setMinuteDue_gcu (d : Bool) : (s.setMinuteDue d).gcu = s.gcu := rfl
@[simp] theorem setMinuteDue_mr (d : Bool) : (s.setMinuteDue d).mr = s.mr := rfl
@[simp] theorem setMinuteDue_dl (d : Bool) : (s.setMinuteDue d).dl = s.dl := rfl
@[simp] theorem setMinuteDue_rc (d : Bool) : (s.setMinuteDue d).rc = s.rc := rfl
@[simp] theorem setMinuteDue_rlc (d : Bool) : (s.setMinuteDue d).rlc = s.rlc := rfl
@[simp] theorem setMinuteDue_op (d : Bool) : (s.setMinuteDue d).op = s.op := rfl
@[simp] theorem setMinuteDue_mc (d : Bool) : (s.setMinuteDue d).mc = s.mc := rfl
@[simp] theorem setMinuteDue_pins (d : Bool) : (s.setMinuteDue d).pins = s.pins := rfl
@[simp] theorem setMinuteDue_underway (d : Bool) : (s.setMinuteDue d).underway = s.underway := rfl
@[simp] theorem setMinuteDue_out (d : Bool) : (s.setMinuteDue d).out = s.out := rfl
@[simp] theorem setMinuteDue_pending (d : Bool) : (s.setMinuteDue d).pending = s.pending := rfl

/-! `setClock` -/

@[simp] theorem setClock_tc (c : Nat) : (s.setClock c).tc = { s.tc with clock := c } := rfl
@[simp] theorem setClock_accounts (c : Nat) : (s.setClock c).accounts = s.accounts := rfl
@[simp] theorem setClock_hu (c : Nat) : (s.setClock c).hu = s.hu := rfl
@[simp] theorem setClock_folders (c : Nat) : (s.setClock c).folders = s.folders := rfl
@[simp] theorem setClock_gcu (c : Nat) : (s.setClock c).gcu = s.gcu := rfl
@[simp] theorem setClock_mr (c : Nat) : (s.setClock c).mr = s.mr := rfl
@[simp] theorem setClock_dl (c : Nat) : (s.setClock c).dl = s.dl := rfl
@[simp] theorem setClock_rc (c : Nat) : (s.setClock c).rc = s.rc := rfl
@[simp] theorem setClock_rlc (c : Nat) : (s.setClock c).rlc = s.rlc := rfl
@[simp] theorem setClock_op (c : Nat) : (s.setClock c).op = s.op := rfl
@[simp] theorem setClock_mc (c : Nat) : (s.setClock c).mc = s.mc := rfl
@[simp] theorem setClock_pins (c : Nat) : (s.setClock c).pins = s.pins := rfl
@[simp] theorem setClock_underway (c : Nat) : (s.setClock c).underway = s.underway := rfl
@[simp] theorem setClock_out (c : Nat) : (s.setClock c).out = s.out := rfl
@[simp] theorem setClock_pending (c : Nat) : (s.setClock c).pending = s.pending := rfl

/-! `placeClock` -/

@[simp] theorem placeClock_tc (v o : Nat) : (placeClock v o s).tc = { s.tc with clock := v, dayOffset := o, clockSet := true } := rfl
@[simp] theorem placeClock_accounts (v o : Nat) : (placeClock v o s).accounts = s.accounts := rfl
@[simp] theorem placeClock_hu (v o : Nat) : (placeClock v o s).hu = s.hu := rfl
@[simp] theorem placeClock_folders (v o : Nat) : (placeClock v o s).folders = s.folders := rfl
@[simp] theorem placeClock_gcu (v o : Nat) : (placeClock v o s).gcu = s.gcu := rfl
@[simp] theorem placeClock_mr (v o : Nat) : (placeClock v o s).mr = s.mr := rfl
@[simp] theorem placeClock_dl (v o : Nat) : (placeClock v o s).dl = s.dl := rfl
@[simp] theorem placeClock_rc (v o : Nat) : (placeClock v o s).rc = s.rc := rfl
@[simp] theorem placeClock_rlc (v o : Nat) : (placeClock v o s).rlc = s.rlc := rfl
@[simp] theorem placeClock_op (v o : Nat) : (placeClock v o s).op = s.op := rfl
@[simp] theorem placeClock_mc (v o : Nat) : (placeClock v o s).mc = s.mc := rfl
@[simp] theorem placeClock_pins (v o : Nat) : (placeClock v o s).pins = s.pins := rfl
@[simp] theorem placeClock_underway (v o : Nat) : (placeClock v o s).underway = s.underway := rfl
@[simp] theorem placeClock_out (v o : Nat) : (placeClock v o s).out = s.out := rfl
@[simp] theorem placeClock_pending (v o : Nat) : (placeClock v o s).pending = s.pending := rfl

/-! `setAttention` -/

@[simp] theorem setAttention_tc (f : AttentionFlag) : (setAttention f s).tc = s.tc := rfl
@[simp] theorem setAttention_accounts (f : AttentionFlag) : (setAttention f s).accounts = s.accounts := rfl
@[simp] theorem setAttention_hu (f : AttentionFlag) : (setAttention f s).hu = s.hu := rfl
@[simp] theorem setAttention_folders (f : AttentionFlag) : (setAttention f s).folders = s.folders := rfl
@[simp] theorem setAttention_gcu (f : AttentionFlag) : (setAttention f s).gcu = s.gcu := rfl
@[simp] theorem setAttention_mr (f : AttentionFlag) : (setAttention f s).mr = s.mr := rfl
@[simp] theorem setAttention_dl (f : AttentionFlag) : (setAttention f s).dl = s.dl := rfl
@[simp] theorem setAttention_rc (f : AttentionFlag) : (setAttention f s).rc = s.rc := rfl
@[simp] theorem setAttention_rlc (f : AttentionFlag) : (setAttention f s).rlc = s.rlc := rfl
@[simp] theorem setAttention_op (f : AttentionFlag) : (setAttention f s).op = { s.op with flags := withMember s.op.flags f.bit } := rfl
@[simp] theorem setAttention_mc (f : AttentionFlag) : (setAttention f s).mc = s.mc := rfl
@[simp] theorem setAttention_pins (f : AttentionFlag) : (setAttention f s).pins = s.pins := rfl
@[simp] theorem setAttention_underway (f : AttentionFlag) : (setAttention f s).underway = s.underway := rfl
@[simp] theorem setAttention_out (f : AttentionFlag) : (setAttention f s).out = s.out := rfl
@[simp] theorem setAttention_pending (f : AttentionFlag) : (setAttention f s).pending = s.pending := rfl

/-! `setSubstances` -/

@[simp] theorem setSubstances_tc (l : List Substance) : (s.setSubstances l).tc = s.tc := rfl
@[simp] theorem setSubstances_accounts (l : List Substance) : (s.setSubstances l).accounts = s.accounts := rfl
@[simp] theorem setSubstances_hu (l : List Substance) : (s.setSubstances l).hu = s.hu := rfl
@[simp] theorem setSubstances_folders (l : List Substance) : (s.setSubstances l).folders = s.folders := rfl
@[simp] theorem setSubstances_gcu (l : List Substance) : (s.setSubstances l).gcu = { s.gcu with substances := l } := rfl
@[simp] theorem setSubstances_mr (l : List Substance) : (s.setSubstances l).mr = s.mr := rfl
@[simp] theorem setSubstances_dl (l : List Substance) : (s.setSubstances l).dl = s.dl := rfl
@[simp] theorem setSubstances_rc (l : List Substance) : (s.setSubstances l).rc = s.rc := rfl
@[simp] theorem setSubstances_rlc (l : List Substance) : (s.setSubstances l).rlc = s.rlc := rfl
@[simp] theorem setSubstances_op (l : List Substance) : (s.setSubstances l).op = s.op := rfl
@[simp] theorem setSubstances_mc (l : List Substance) : (s.setSubstances l).mc = s.mc := rfl
@[simp] theorem setSubstances_pins (l : List Substance) : (s.setSubstances l).pins = s.pins := rfl
@[simp] theorem setSubstances_underway (l : List Substance) : (s.setSubstances l).underway = s.underway := rfl
@[simp] theorem setSubstances_out (l : List Substance) : (s.setSubstances l).out = s.out := rfl
@[simp] theorem setSubstances_pending (l : List Substance) : (s.setSubstances l).pending = s.pending := rfl

/-! `setCells` -/

@[simp] theorem setCells_tc (g h : Fin 16) (r : Ruling) : (s.setCells g h r).tc = s.tc := rfl
@[simp] theorem setCells_accounts (g h : Fin 16) (r : Ruling) : (s.setCells g h r).accounts = s.accounts := rfl
@[simp] theorem setCells_hu (g h : Fin 16) (r : Ruling) : (s.setCells g h r).hu = s.hu := rfl
@[simp] theorem setCells_folders (g h : Fin 16) (r : Ruling) : (s.setCells g h r).folders = s.folders := rfl
@[simp] theorem setCells_gcu (g h : Fin 16) (r : Ruling) : (s.setCells g h r).gcu = { s.gcu with cells := (s.gcu.cells.set (cellIndex g h) r).set (cellIndex h g) r } := rfl
@[simp] theorem setCells_mr (g h : Fin 16) (r : Ruling) : (s.setCells g h r).mr = s.mr := rfl
@[simp] theorem setCells_dl (g h : Fin 16) (r : Ruling) : (s.setCells g h r).dl = s.dl := rfl
@[simp] theorem setCells_rc (g h : Fin 16) (r : Ruling) : (s.setCells g h r).rc = s.rc := rfl
@[simp] theorem setCells_rlc (g h : Fin 16) (r : Ruling) : (s.setCells g h r).rlc = s.rlc := rfl
@[simp] theorem setCells_op (g h : Fin 16) (r : Ruling) : (s.setCells g h r).op = s.op := rfl
@[simp] theorem setCells_mc (g h : Fin 16) (r : Ruling) : (s.setCells g h r).mc = s.mc := rfl
@[simp] theorem setCells_pins (g h : Fin 16) (r : Ruling) : (s.setCells g h r).pins = s.pins := rfl
@[simp] theorem setCells_underway (g h : Fin 16) (r : Ruling) : (s.setCells g h r).underway = s.underway := rfl
@[simp] theorem setCells_out (g h : Fin 16) (r : Ruling) : (s.setCells g h r).out = s.out := rfl
@[simp] theorem setCells_pending (g h : Fin 16) (r : Ruling) : (s.setCells g h r).pending = s.pending := rfl

/-! `setThreshold` -/

@[simp] theorem setThreshold_tc (k : Fin 15) (n : Nat) : (s.setThreshold k n).tc = s.tc := rfl
@[simp] theorem setThreshold_accounts (k : Fin 15) (n : Nat) : (s.setThreshold k n).accounts = s.accounts := rfl
@[simp] theorem setThreshold_hu (k : Fin 15) (n : Nat) : (s.setThreshold k n).hu = s.hu := rfl
@[simp] theorem setThreshold_folders (k : Fin 15) (n : Nat) : (s.setThreshold k n).folders = s.folders := rfl
@[simp] theorem setThreshold_gcu (k : Fin 15) (n : Nat) : (s.setThreshold k n).gcu = { s.gcu with thresholds := s.gcu.thresholds.set k n } := rfl
@[simp] theorem setThreshold_mr (k : Fin 15) (n : Nat) : (s.setThreshold k n).mr = s.mr := rfl
@[simp] theorem setThreshold_dl (k : Fin 15) (n : Nat) : (s.setThreshold k n).dl = s.dl := rfl
@[simp] theorem setThreshold_rc (k : Fin 15) (n : Nat) : (s.setThreshold k n).rc = s.rc := rfl
@[simp] theorem setThreshold_rlc (k : Fin 15) (n : Nat) : (s.setThreshold k n).rlc = s.rlc := rfl
@[simp] theorem setThreshold_op (k : Fin 15) (n : Nat) : (s.setThreshold k n).op = s.op := rfl
@[simp] theorem setThreshold_mc (k : Fin 15) (n : Nat) : (s.setThreshold k n).mc = s.mc := rfl
@[simp] theorem setThreshold_pins (k : Fin 15) (n : Nat) : (s.setThreshold k n).pins = s.pins := rfl
@[simp] theorem setThreshold_underway (k : Fin 15) (n : Nat) : (s.setThreshold k n).underway = s.underway := rfl
@[simp] theorem setThreshold_out (k : Fin 15) (n : Nat) : (s.setThreshold k n).out = s.out := rfl
@[simp] theorem setThreshold_pending (k : Fin 15) (n : Nat) : (s.setThreshold k n).pending = s.pending := rfl

/-! `recordDenial` -/

@[simp] theorem recordDenial_tc (d : Denial) : (recordDenial d s).tc = s.tc := rfl
@[simp] theorem recordDenial_accounts (d : Denial) : (recordDenial d s).accounts = s.accounts := rfl
@[simp] theorem recordDenial_hu (d : Denial) : (recordDenial d s).hu = s.hu := rfl
@[simp] theorem recordDenial_folders (d : Denial) : (recordDenial d s).folders = s.folders := rfl
@[simp] theorem recordDenial_gcu (d : Denial) : (recordDenial d s).gcu = s.gcu := rfl
@[simp] theorem recordDenial_mr (d : Denial) : (recordDenial d s).mr = s.mr := rfl
@[simp] theorem recordDenial_dl (d : Denial) : (recordDenial d s).dl = s.dl := rfl
@[simp] theorem recordDenial_rc (d : Denial) : (recordDenial d s).rc = { s.rc with denials := addDenial d s.rc.denials } := rfl
@[simp] theorem recordDenial_rlc (d : Denial) : (recordDenial d s).rlc = s.rlc := rfl
@[simp] theorem recordDenial_op (d : Denial) : (recordDenial d s).op = { s.op with flags := withMember s.op.flags AttentionFlag.access.bit } := rfl
@[simp] theorem recordDenial_mc (d : Denial) : (recordDenial d s).mc = s.mc := rfl
@[simp] theorem recordDenial_pins (d : Denial) : (recordDenial d s).pins = s.pins := rfl
@[simp] theorem recordDenial_underway (d : Denial) : (recordDenial d s).underway = s.underway := rfl
@[simp] theorem recordDenial_out (d : Denial) : (recordDenial d s).out = s.out := rfl
@[simp] theorem recordDenial_pending (d : Denial) : (recordDenial d s).pending = s.pending := rfl

/-! `shiftOut` -/

@[simp] theorem shiftOut_tc (b : List Byte) : (shiftOut b s).tc = s.tc := rfl
@[simp] theorem shiftOut_accounts (b : List Byte) : (shiftOut b s).accounts = s.accounts := rfl
@[simp] theorem shiftOut_hu (b : List Byte) : (shiftOut b s).hu = s.hu := rfl
@[simp] theorem shiftOut_folders (b : List Byte) : (shiftOut b s).folders = s.folders := rfl
@[simp] theorem shiftOut_gcu (b : List Byte) : (shiftOut b s).gcu = s.gcu := rfl
@[simp] theorem shiftOut_mr (b : List Byte) : (shiftOut b s).mr = s.mr := rfl
@[simp] theorem shiftOut_dl (b : List Byte) : (shiftOut b s).dl = s.dl := rfl
@[simp] theorem shiftOut_rc (b : List Byte) : (shiftOut b s).rc = s.rc := rfl
@[simp] theorem shiftOut_rlc (b : List Byte) : (shiftOut b s).rlc = s.rlc := rfl
@[simp] theorem shiftOut_op (b : List Byte) : (shiftOut b s).op = s.op := rfl
@[simp] theorem shiftOut_mc (b : List Byte) : (shiftOut b s).mc = s.mc := rfl
@[simp] theorem shiftOut_pins (b : List Byte) : (shiftOut b s).pins = s.pins := rfl
@[simp] theorem shiftOut_underway (b : List Byte) : (shiftOut b s).underway = s.underway := rfl
@[simp] theorem shiftOut_out (b : List Byte) : (shiftOut b s).out = { s.out with office := b } := rfl
@[simp] theorem shiftOut_pending (b : List Byte) : (shiftOut b s).pending = s.pending := rfl

/-! `endTransaction` -/

@[simp] theorem endTransaction_tc (b : List Byte) : (endTransaction b s).tc = s.tc := rfl
@[simp] theorem endTransaction_accounts (b : List Byte) : (endTransaction b s).accounts = s.accounts := rfl
@[simp] theorem endTransaction_hu (b : List Byte) : (endTransaction b s).hu = s.hu := rfl
@[simp] theorem endTransaction_folders (b : List Byte) : (endTransaction b s).folders = s.folders := rfl
@[simp] theorem endTransaction_gcu (b : List Byte) : (endTransaction b s).gcu = s.gcu := rfl
@[simp] theorem endTransaction_mr (b : List Byte) : (endTransaction b s).mr = s.mr := rfl
@[simp] theorem endTransaction_dl (b : List Byte) : (endTransaction b s).dl = s.dl := rfl
@[simp] theorem endTransaction_rc (b : List Byte) : (endTransaction b s).rc = s.rc := rfl
@[simp] theorem endTransaction_rlc (b : List Byte) : (endTransaction b s).rlc = s.rlc := rfl
@[simp] theorem endTransaction_op (b : List Byte) : (endTransaction b s).op = s.op := rfl
@[simp] theorem endTransaction_mc (b : List Byte) : (endTransaction b s).mc = s.mc := rfl
@[simp] theorem endTransaction_pins (b : List Byte) : (endTransaction b s).pins = s.pins := rfl
@[simp] theorem endTransaction_underway (b : List Byte) : (endTransaction b s).underway = { s.underway with summary := none, risen := none } := rfl
@[simp] theorem endTransaction_out (b : List Byte) : (endTransaction b s).out = { s.out with office := b } := rfl
@[simp] theorem endTransaction_pending (b : List Byte) : (endTransaction b s).pending = s.pending := rfl

/-! `frameReceived` -/

@[simp] theorem frameReceived_tc (n : Fin 9) : (s.frameReceived n).tc = s.tc := rfl
@[simp] theorem frameReceived_accounts (n : Fin 9) : (s.frameReceived n).accounts = s.accounts := rfl
@[simp] theorem frameReceived_hu (n : Fin 9) : (s.frameReceived n).hu = s.hu := rfl
@[simp] theorem frameReceived_folders (n : Fin 9) : (s.frameReceived n).folders = s.folders := rfl
@[simp] theorem frameReceived_gcu (n : Fin 9) : (s.frameReceived n).gcu = s.gcu := rfl
@[simp] theorem frameReceived_mr (n : Fin 9) : (s.frameReceived n).mr = s.mr := rfl
@[simp] theorem frameReceived_dl (n : Fin 9) : (s.frameReceived n).dl = s.dl := rfl
@[simp] theorem frameReceived_rc (n : Fin 9) : (s.frameReceived n).rc = s.rc := rfl
@[simp] theorem frameReceived_rlc (n : Fin 9) : (s.frameReceived n).rlc = s.rlc := rfl
@[simp] theorem frameReceived_op (n : Fin 9) : (s.frameReceived n).op = s.op := rfl
@[simp] theorem frameReceived_mc (n : Fin 9) : (s.frameReceived n).mc = s.mc := rfl
@[simp] theorem frameReceived_pins (n : Fin 9) : (s.frameReceived n).pins = s.pins := rfl
@[simp] theorem frameReceived_underway (n : Fin 9) : (s.frameReceived n).underway = { s.underway with frame := some ⟨n, s.tc.clock, s.mc.mode, s.mc.pendingTarget.isSome⟩ } := rfl
@[simp] theorem frameReceived_out (n : Fin 9) : (s.frameReceived n).out = s.out := rfl
@[simp] theorem frameReceived_pending (n : Fin 9) : (s.frameReceived n).pending = s.pending := rfl

/-! `slotClosed` -/

@[simp] theorem slotClosed_tc : s.slotClosed.tc = s.tc := rfl
@[simp] theorem slotClosed_accounts : s.slotClosed.accounts = s.accounts := rfl
@[simp] theorem slotClosed_hu : s.slotClosed.hu = s.hu := rfl
@[simp] theorem slotClosed_folders : s.slotClosed.folders = s.folders := rfl
@[simp] theorem slotClosed_gcu : s.slotClosed.gcu = s.gcu := rfl
@[simp] theorem slotClosed_mr : s.slotClosed.mr = s.mr := rfl
@[simp] theorem slotClosed_dl : s.slotClosed.dl = s.dl := rfl
@[simp] theorem slotClosed_rc : s.slotClosed.rc = s.rc := rfl
@[simp] theorem slotClosed_rlc : s.slotClosed.rlc = s.rlc := rfl
@[simp] theorem slotClosed_op : s.slotClosed.op = s.op := rfl
@[simp] theorem slotClosed_mc : s.slotClosed.mc = s.mc := rfl
@[simp] theorem slotClosed_pins : s.slotClosed.pins = s.pins := rfl
@[simp] theorem slotClosed_underway : s.slotClosed.underway = { s.underway with frame := none } := rfl
@[simp] theorem slotClosed_out : s.slotClosed.out = s.out := rfl
@[simp] theorem slotClosed_pending : s.slotClosed.pending = s.pending := rfl

/-! `refusedEnds` -/

@[simp] theorem refusedEnds_tc (n : Nat) : (refusedEnds n s).tc = s.tc := rfl
@[simp] theorem refusedEnds_accounts (n : Nat) : (refusedEnds n s).accounts = s.accounts := rfl
@[simp] theorem refusedEnds_hu (n : Nat) : (refusedEnds n s).hu = s.hu := rfl
@[simp] theorem refusedEnds_folders (n : Nat) : (refusedEnds n s).folders = s.folders := rfl
@[simp] theorem refusedEnds_gcu (n : Nat) : (refusedEnds n s).gcu = s.gcu := rfl
@[simp] theorem refusedEnds_mr (n : Nat) : (refusedEnds n s).mr = s.mr := rfl
@[simp] theorem refusedEnds_dl (n : Nat) : (refusedEnds n s).dl = s.dl := rfl
@[simp] theorem refusedEnds_rc (n : Nat) : (refusedEnds n s).rc = s.rc := rfl
@[simp] theorem refusedEnds_rlc (n : Nat) : (refusedEnds n s).rlc = s.rlc := rfl
@[simp] theorem refusedEnds_op (n : Nat) : (refusedEnds n s).op = s.op := rfl
@[simp] theorem refusedEnds_mc (n : Nat) : (refusedEnds n s).mc = s.mc := rfl
@[simp] theorem refusedEnds_pins (n : Nat) : (refusedEnds n s).pins = s.pins := rfl
@[simp] theorem refusedEnds_underway (n : Nat) : (refusedEnds n s).underway = { s.underway with refused := false } := rfl
@[simp] theorem refusedEnds_out (n : Nat) : (refusedEnds n s).out = { s.out with office := allOnes n } := rfl
@[simp] theorem refusedEnds_pending (n : Nat) : (refusedEnds n s).pending = s.pending := rfl

/-! `discardUnderway` -/

@[simp] theorem discardUnderway_tc : s.discardUnderway.tc = s.tc := rfl
@[simp] theorem discardUnderway_accounts : s.discardUnderway.accounts = s.accounts := rfl
@[simp] theorem discardUnderway_hu : s.discardUnderway.hu = s.hu := rfl
@[simp] theorem discardUnderway_folders : s.discardUnderway.folders = s.folders := rfl
@[simp] theorem discardUnderway_gcu : s.discardUnderway.gcu = s.gcu := rfl
@[simp] theorem discardUnderway_mr : s.discardUnderway.mr = s.mr := rfl
@[simp] theorem discardUnderway_dl : s.discardUnderway.dl = s.dl := rfl
@[simp] theorem discardUnderway_rc : s.discardUnderway.rc = s.rc := rfl
@[simp] theorem discardUnderway_rlc : s.discardUnderway.rlc = s.rlc := rfl
@[simp] theorem discardUnderway_op : s.discardUnderway.op = s.op := rfl
@[simp] theorem discardUnderway_mc : s.discardUnderway.mc = s.mc := rfl
@[simp] theorem discardUnderway_pins : s.discardUnderway.pins = s.pins := rfl
@[simp] theorem discardUnderway_underway : s.discardUnderway.underway = ⟨none, s.underway.refused || s.underway.shifting, none, none⟩ := rfl
@[simp] theorem discardUnderway_out : s.discardUnderway.out = s.out := rfl
@[simp] theorem discardUnderway_pending : s.discardUnderway.pending = s.pending := rfl

/-! `nothingUnderway` -/

@[simp] theorem nothingUnderway_tc : s.nothingUnderway.tc = s.tc := rfl
@[simp] theorem nothingUnderway_accounts : s.nothingUnderway.accounts = s.accounts := rfl
@[simp] theorem nothingUnderway_hu : s.nothingUnderway.hu = s.hu := rfl
@[simp] theorem nothingUnderway_folders : s.nothingUnderway.folders = s.folders := rfl
@[simp] theorem nothingUnderway_gcu : s.nothingUnderway.gcu = s.gcu := rfl
@[simp] theorem nothingUnderway_mr : s.nothingUnderway.mr = s.mr := rfl
@[simp] theorem nothingUnderway_dl : s.nothingUnderway.dl = s.dl := rfl
@[simp] theorem nothingUnderway_rc : s.nothingUnderway.rc = s.rc := rfl
@[simp] theorem nothingUnderway_rlc : s.nothingUnderway.rlc = s.rlc := rfl
@[simp] theorem nothingUnderway_op : s.nothingUnderway.op = s.op := rfl
@[simp] theorem nothingUnderway_mc : s.nothingUnderway.mc = s.mc := rfl
@[simp] theorem nothingUnderway_pins : s.nothingUnderway.pins = s.pins := rfl
@[simp] theorem nothingUnderway_underway : s.nothingUnderway.underway = ⟨none, false, none, none⟩ := rfl
@[simp] theorem nothingUnderway_out : s.nothingUnderway.out = s.out := rfl
@[simp] theorem nothingUnderway_pending : s.nothingUnderway.pending = s.pending := rfl

/-! `portMoved` -/

@[simp] theorem portMoved_tc (a : Option Byte) (r : Bool) (x : Option Taking) (b : List Byte) : (s.portMoved a r x b).tc = s.tc := rfl
@[simp] theorem portMoved_accounts (a : Option Byte) (r : Bool) (x : Option Taking) (b : List Byte) : (s.portMoved a r x b).accounts = s.accounts := rfl
@[simp] theorem portMoved_hu (a : Option Byte) (r : Bool) (x : Option Taking) (b : List Byte) : (s.portMoved a r x b).hu = s.hu := rfl
@[simp] theorem portMoved_folders (a : Option Byte) (r : Bool) (x : Option Taking) (b : List Byte) : (s.portMoved a r x b).folders = s.folders := rfl
@[simp] theorem portMoved_gcu (a : Option Byte) (r : Bool) (x : Option Taking) (b : List Byte) : (s.portMoved a r x b).gcu = s.gcu := rfl
@[simp] theorem portMoved_mr (a : Option Byte) (r : Bool) (x : Option Taking) (b : List Byte) : (s.portMoved a r x b).mr = s.mr := rfl
@[simp] theorem portMoved_dl (a : Option Byte) (r : Bool) (x : Option Taking) (b : List Byte) : (s.portMoved a r x b).dl = s.dl := rfl
@[simp] theorem portMoved_rc (a : Option Byte) (r : Bool) (x : Option Taking) (b : List Byte) : (s.portMoved a r x b).rc = s.rc := rfl
@[simp] theorem portMoved_rlc (a : Option Byte) (r : Bool) (x : Option Taking) (b : List Byte) : (s.portMoved a r x b).rlc = s.rlc := rfl
@[simp] theorem portMoved_op (a : Option Byte) (r : Bool) (x : Option Taking) (b : List Byte) : (s.portMoved a r x b).op = s.op := rfl
@[simp] theorem portMoved_mc (a : Option Byte) (r : Bool) (x : Option Taking) (b : List Byte) : (s.portMoved a r x b).mc = s.mc := rfl
@[simp] theorem portMoved_pins (a : Option Byte) (r : Bool) (x : Option Taking) (b : List Byte) : (s.portMoved a r x b).pins = s.pins := rfl
@[simp] theorem portMoved_underway (a : Option Byte) (r : Bool) (x : Option Taking) (b : List Byte) : (s.portMoved a r x b).underway = { s.underway with summary := a, refused := r, risen := x } := rfl
@[simp] theorem portMoved_out (a : Option Byte) (r : Bool) (x : Option Taking) (b : List Byte) : (s.portMoved a r x b).out = { s.out with office := b } := rfl
@[simp] theorem portMoved_pending (a : Option Byte) (r : Bool) (x : Option Taking) (b : List Byte) : (s.portMoved a r x b).pending = s.pending := rfl

/-! `takeFrame` -/

@[simp] theorem takeFrame_tc (n : Fin 9) : (takeFrame n s).tc = s.tc := rfl
@[simp] theorem takeFrame_accounts (n : Fin 9) : (takeFrame n s).accounts = s.accounts := rfl
@[simp] theorem takeFrame_hu (n : Fin 9) : (takeFrame n s).hu = s.hu := rfl
@[simp] theorem takeFrame_folders (n : Fin 9) : (takeFrame n s).folders = s.folders := rfl
@[simp] theorem takeFrame_gcu (n : Fin 9) : (takeFrame n s).gcu = s.gcu := rfl
@[simp] theorem takeFrame_mr (n : Fin 9) : (takeFrame n s).mr = s.mr := rfl
@[simp] theorem takeFrame_dl (n : Fin 9) : (takeFrame n s).dl = s.dl := rfl
@[simp] theorem takeFrame_rc (n : Fin 9) : (takeFrame n s).rc = s.rc := rfl
@[simp] theorem takeFrame_rlc (n : Fin 9) : (takeFrame n s).rlc = { s.rlc with taken := withMember s.rlc.taken n.val, reserved := s.rlc.reserved + 1 } := rfl
@[simp] theorem takeFrame_op (n : Fin 9) : (takeFrame n s).op = s.op := rfl
@[simp] theorem takeFrame_mc (n : Fin 9) : (takeFrame n s).mc = s.mc := rfl
@[simp] theorem takeFrame_pins (n : Fin 9) : (takeFrame n s).pins = s.pins := rfl
@[simp] theorem takeFrame_underway (n : Fin 9) : (takeFrame n s).underway = s.underway := rfl
@[simp] theorem takeFrame_out (n : Fin 9) : (takeFrame n s).out = s.out := rfl
@[simp] theorem takeFrame_pending (n : Fin 9) : (takeFrame n s).pending = s.pending := rfl

/-! `setProfile` -/

@[simp] theorem setProfile_tc (p : ProfileLetter) (x : LimitProfile) : (s.setProfile p x).tc = s.tc := by
  cases p <;> rfl
@[simp] theorem setProfile_accounts (p : ProfileLetter) (x : LimitProfile) : (s.setProfile p x).accounts = s.accounts := by
  cases p <;> rfl
@[simp] theorem setProfile_folders (p : ProfileLetter) (x : LimitProfile) : (s.setProfile p x).folders = s.folders := by
  cases p <;> rfl
@[simp] theorem setProfile_gcu (p : ProfileLetter) (x : LimitProfile) : (s.setProfile p x).gcu = s.gcu := by
  cases p <;> rfl
@[simp] theorem setProfile_mr (p : ProfileLetter) (x : LimitProfile) : (s.setProfile p x).mr = s.mr := by
  cases p <;> rfl
@[simp] theorem setProfile_dl (p : ProfileLetter) (x : LimitProfile) : (s.setProfile p x).dl = s.dl := by
  cases p <;> rfl
@[simp] theorem setProfile_rc (p : ProfileLetter) (x : LimitProfile) : (s.setProfile p x).rc = s.rc := by
  cases p <;> rfl
@[simp] theorem setProfile_rlc (p : ProfileLetter) (x : LimitProfile) : (s.setProfile p x).rlc = s.rlc := by
  cases p <;> rfl
@[simp] theorem setProfile_op (p : ProfileLetter) (x : LimitProfile) : (s.setProfile p x).op = s.op := by
  cases p <;> rfl
@[simp] theorem setProfile_mc (p : ProfileLetter) (x : LimitProfile) : (s.setProfile p x).mc = s.mc := by
  cases p <;> rfl
@[simp] theorem setProfile_pins (p : ProfileLetter) (x : LimitProfile) : (s.setProfile p x).pins = s.pins := by
  cases p <;> rfl
@[simp] theorem setProfile_underway (p : ProfileLetter) (x : LimitProfile) : (s.setProfile p x).underway = s.underway := by
  cases p <;> rfl
@[simp] theorem setProfile_out (p : ProfileLetter) (x : LimitProfile) : (s.setProfile p x).out = s.out := by
  cases p <;> rfl
@[simp] theorem setProfile_pending (p : ProfileLetter) (x : LimitProfile) : (s.setProfile p x).pending = s.pending := by
  cases p <;> rfl
@[simp] theorem setProfile_alarms (p : ProfileLetter) (x : LimitProfile) :
    (s.setProfile p x).hu.alarms = s.hu.alarms := by
  cases p <;> rfl

/-! `placeReply` -/

@[simp] theorem placeReply_tc (o : OfficeFrame) (c : Byte) (a : Answer) : (placeReply o c a).tc = a.state.tc := rfl
@[simp] theorem placeReply_accounts (o : OfficeFrame) (c : Byte) (a : Answer) : (placeReply o c a).accounts = a.state.accounts := rfl
@[simp] theorem placeReply_hu (o : OfficeFrame) (c : Byte) (a : Answer) : (placeReply o c a).hu = a.state.hu := rfl
@[simp] theorem placeReply_folders (o : OfficeFrame) (c : Byte) (a : Answer) : (placeReply o c a).folders = a.state.folders := rfl
@[simp] theorem placeReply_gcu (o : OfficeFrame) (c : Byte) (a : Answer) : (placeReply o c a).gcu = a.state.gcu := rfl
@[simp] theorem placeReply_mr (o : OfficeFrame) (c : Byte) (a : Answer) : (placeReply o c a).mr = a.state.mr := rfl
@[simp] theorem placeReply_dl (o : OfficeFrame) (c : Byte) (a : Answer) : (placeReply o c a).dl = a.state.dl := rfl
@[simp] theorem placeReply_rc (o : OfficeFrame) (c : Byte) (a : Answer) : (placeReply o c a).rc = a.state.rc := rfl
@[simp] theorem placeReply_rlc (o : OfficeFrame) (c : Byte) (a : Answer) : (placeReply o c a).rlc = a.state.rlc := rfl
@[simp] theorem placeReply_op (o : OfficeFrame) (c : Byte) (a : Answer) :
    (placeReply o c a).op = { a.state.op with reply := some ⟨o.tag, c, a.result, a.data⟩ } := rfl
@[simp] theorem placeReply_mc (o : OfficeFrame) (c : Byte) (a : Answer) : (placeReply o c a).mc = a.state.mc := rfl
@[simp] theorem placeReply_pins (o : OfficeFrame) (c : Byte) (a : Answer) : (placeReply o c a).pins = a.state.pins := rfl
@[simp] theorem placeReply_underway (o : OfficeFrame) (c : Byte) (a : Answer) : (placeReply o c a).underway = a.state.underway := rfl
@[simp] theorem placeReply_out (o : OfficeFrame) (c : Byte) (a : Answer) : (placeReply o c a).out = a.state.out := rfl
@[simp] theorem placeReply_pending (o : OfficeFrame) (c : Byte) (a : Answer) : (placeReply o c a).pending = a.state.pending := rfl

/-! `settleReply` -/

@[simp] theorem settleReply_tc (n : Fin 9) (t : Byte) (c : ReplyBody → ReplyClass) (a : LinkAnswer) :
    (settleReply n t c a).tc = a.state.tc := rfl
@[simp] theorem settleReply_accounts (n : Fin 9) (t : Byte) (c : ReplyBody → ReplyClass) (a : LinkAnswer) :
    (settleReply n t c a).accounts = a.state.accounts := rfl
@[simp] theorem settleReply_hu (n : Fin 9) (t : Byte) (c : ReplyBody → ReplyClass) (a : LinkAnswer) :
    (settleReply n t c a).hu = a.state.hu := rfl
@[simp] theorem settleReply_folders (n : Fin 9) (t : Byte) (c : ReplyBody → ReplyClass) (a : LinkAnswer) :
    (settleReply n t c a).folders = a.state.folders := rfl
@[simp] theorem settleReply_gcu (n : Fin 9) (t : Byte) (c : ReplyBody → ReplyClass) (a : LinkAnswer) :
    (settleReply n t c a).gcu = a.state.gcu := rfl
@[simp] theorem settleReply_mr (n : Fin 9) (t : Byte) (c : ReplyBody → ReplyClass) (a : LinkAnswer) :
    (settleReply n t c a).mr = a.state.mr := rfl
@[simp] theorem settleReply_dl (n : Fin 9) (t : Byte) (c : ReplyBody → ReplyClass) (a : LinkAnswer) :
    (settleReply n t c a).dl = a.state.dl := rfl
@[simp] theorem settleReply_rc (n : Fin 9) (t : Byte) (c : ReplyBody → ReplyClass) (a : LinkAnswer) :
    (settleReply n t c a).rc = a.state.rc := rfl
@[simp] theorem settleReply_op (n : Fin 9) (t : Byte) (c : ReplyBody → ReplyClass) (a : LinkAnswer) :
    (settleReply n t c a).op = a.state.op := rfl
@[simp] theorem settleReply_mc (n : Fin 9) (t : Byte) (c : ReplyBody → ReplyClass) (a : LinkAnswer) :
    (settleReply n t c a).mc = a.state.mc := rfl
@[simp] theorem settleReply_pins (n : Fin 9) (t : Byte) (c : ReplyBody → ReplyClass) (a : LinkAnswer) :
    (settleReply n t c a).pins = a.state.pins := rfl
@[simp] theorem settleReply_underway (n : Fin 9) (t : Byte) (c : ReplyBody → ReplyClass) (a : LinkAnswer) :
    (settleReply n t c a).underway = a.state.underway := rfl
@[simp] theorem settleReply_out (n : Fin 9) (t : Byte) (c : ReplyBody → ReplyClass) (a : LinkAnswer) :
    (settleReply n t c a).out = a.state.out := rfl
@[simp] theorem settleReply_pending (n : Fin 9) (t : Byte) (c : ReplyBody → ReplyClass) (a : LinkAnswer) :
    (settleReply n t c a).pending = a.state.pending := rfl

/-! ## Answers -/

@[simp] theorem answerOk_state (data : List Byte) : (answerOk s data).state = s := rfl
@[simp] theorem answerOk_result (data : List Byte) : (answerOk s data).result = none := rfl
@[simp] theorem answerOk_data (data : List Byte) : (answerOk s data).data = data := rfl
@[simp] theorem answerRefused_state (r : Reason) : (answerRefused s r).state = s := rfl
@[simp] theorem answerRefused_result (r : Reason) : (answerRefused s r).result = some r := rfl
@[simp] theorem answerRefused_data (r : Reason) : (answerRefused s r).data = [] := rfl
@[simp] theorem replied_state (b : ReplyBody) (a : Argument) : (replied s b a).state = s := rfl
@[simp] theorem replied_reply (b : ReplyBody) (a : Argument) : (replied s b a).reply = some (b, a) := rfl
@[simp] theorem deniedBy_state (r : Reason) : (deniedBy s r).state = s := rfl
@[simp] theorem deniedBy_reply (r : Reason) : (deniedBy s r).reply = some (.deny r, .none) := rfl
@[simp] theorem silent_state : (silent s).state = s := rfl
@[simp] theorem silent_reply : (silent s).reply = none := rfl

/-! ## Records an update leaves alone -/

@[simp] theorem folder_setAccount (i : Fin 64) (a : Account) (folder : Fin 16) : (s.setAccount i a).folder folder = s.folder folder := rfl
@[simp] theorem node_setAccount (i : Fin 64) (a : Account) (node : Fin 9) : (s.setAccount i a).node node = s.node node := rfl
@[simp] theorem profile_setAccount (i : Fin 64) (a : Account) (q : ProfileLetter) : (s.setAccount i a).profile q = s.profile q := by cases q <;> rfl
@[simp] theorem minute_setAccount (i : Fin 64) (a : Account) : (s.setAccount i a).minute = s.minute := rfl
@[simp] theorem today_setAccount (i : Fin 64) (a : Account) : (s.setAccount i a).today = s.today := rfl
@[simp] theorem account_setFolder (f : Fin 16) (x : Folder) (j : Fin 64) : (s.setFolder f x).account j = s.account j := rfl
@[simp] theorem node_setFolder (f : Fin 16) (x : Folder) (node : Fin 9) : (s.setFolder f x).node node = s.node node := rfl
@[simp] theorem profile_setFolder (f : Fin 16) (x : Folder) (q : ProfileLetter) : (s.setFolder f x).profile q = s.profile q := by cases q <;> rfl
@[simp] theorem minute_setFolder (f : Fin 16) (x : Folder) : (s.setFolder f x).minute = s.minute := rfl
@[simp] theorem today_setFolder (f : Fin 16) (x : Folder) : (s.setFolder f x).today = s.today := rfl
@[simp] theorem account_setNode (n : Fin 9) (e : NodeEntry) (j : Fin 64) : (s.setNode n e).account j = s.account j := rfl
@[simp] theorem folder_setNode (n : Fin 9) (e : NodeEntry) (folder : Fin 16) : (s.setNode n e).folder folder = s.folder folder := rfl
@[simp] theorem profile_setNode (n : Fin 9) (e : NodeEntry) (q : ProfileLetter) : (s.setNode n e).profile q = s.profile q := by cases q <;> rfl
@[simp] theorem minute_setNode (n : Fin 9) (e : NodeEntry) : (s.setNode n e).minute = s.minute := rfl
@[simp] theorem today_setNode (n : Fin 9) (e : NodeEntry) : (s.setNode n e).today = s.today := rfl
@[simp] theorem account_setAlarms (l : List AlarmEntry) (j : Fin 64) : (s.setAlarms l).account j = s.account j := rfl
@[simp] theorem folder_setAlarms (l : List AlarmEntry) (folder : Fin 16) : (s.setAlarms l).folder folder = s.folder folder := rfl
@[simp] theorem node_setAlarms (l : List AlarmEntry) (node : Fin 9) : (s.setAlarms l).node node = s.node node := rfl
@[simp] theorem profile_setAlarms (l : List AlarmEntry) (q : ProfileLetter) : (s.setAlarms l).profile q = s.profile q := by cases q <;> rfl
@[simp] theorem minute_setAlarms (l : List AlarmEntry) : (s.setAlarms l).minute = s.minute := rfl
@[simp] theorem today_setAlarms (l : List AlarmEntry) : (s.setAlarms l).today = s.today := rfl
@[simp] theorem account_setMode (m : Mode) (j : Fin 64) : (s.setMode m).account j = s.account j := rfl
@[simp] theorem folder_setMode (m : Mode) (folder : Fin 16) : (s.setMode m).folder folder = s.folder folder := rfl
@[simp] theorem node_setMode (m : Mode) (node : Fin 9) : (s.setMode m).node node = s.node node := rfl
@[simp] theorem profile_setMode (m : Mode) (q : ProfileLetter) : (s.setMode m).profile q = s.profile q := by cases q <;> rfl
@[simp] theorem minute_setMode (m : Mode) : (s.setMode m).minute = s.minute := rfl
@[simp] theorem today_setMode (m : Mode) : (s.setMode m).today = s.today := rfl
@[simp] theorem account_setPendingTarget (t : Option Mode) (j : Fin 64) : (s.setPendingTarget t).account j = s.account j := rfl
@[simp] theorem folder_setPendingTarget (t : Option Mode) (folder : Fin 16) : (s.setPendingTarget t).folder folder = s.folder folder := rfl
@[simp] theorem node_setPendingTarget (t : Option Mode) (node : Fin 9) : (s.setPendingTarget t).node node = s.node node := rfl
@[simp] theorem profile_setPendingTarget (t : Option Mode) (q : ProfileLetter) : (s.setPendingTarget t).profile q = s.profile q := by cases q <;> rfl
@[simp] theorem minute_setPendingTarget (t : Option Mode) : (s.setPendingTarget t).minute = s.minute := rfl
@[simp] theorem today_setPendingTarget (t : Option Mode) : (s.setPendingTarget t).today = s.today := rfl
@[simp] theorem account_setLastStart (k : StartKind) (c : StartCause) (j : Fin 64) : (s.setLastStart k c).account j = s.account j := rfl
@[simp] theorem folder_setLastStart (k : StartKind) (c : StartCause) (folder : Fin 16) : (s.setLastStart k c).folder folder = s.folder folder := rfl
@[simp] theorem node_setLastStart (k : StartKind) (c : StartCause) (node : Fin 9) : (s.setLastStart k c).node node = s.node node := rfl
@[simp] theorem profile_setLastStart (k : StartKind) (c : StartCause) (q : ProfileLetter) : (s.setLastStart k c).profile q = s.profile q := by cases q <;> rfl
@[simp] theorem minute_setLastStart (k : StartKind) (c : StartCause) : (s.setLastStart k c).minute = s.minute := rfl
@[simp] theorem today_setLastStart (k : StartKind) (c : StartCause) : (s.setLastStart k c).today = s.today := rfl
@[simp] theorem account_setRunning (j : Fin 64) : s.setRunning.account j = s.account j := rfl
@[simp] theorem folder_setRunning (folder : Fin 16) : s.setRunning.folder folder = s.folder folder := rfl
@[simp] theorem node_setRunning (node : Fin 9) : s.setRunning.node node = s.node node := rfl
@[simp] theorem profile_setRunning (q : ProfileLetter) : s.setRunning.profile q = s.profile q := by cases q <;> rfl
@[simp] theorem minute_setRunning : s.setRunning.minute = s.minute := rfl
@[simp] theorem today_setRunning : s.setRunning.today = s.today := rfl
@[simp] theorem account_raiseHighWater (n : Nat) (j : Fin 64) : (s.raiseHighWater n).account j = s.account j := rfl
@[simp] theorem folder_raiseHighWater (n : Nat) (folder : Fin 16) : (s.raiseHighWater n).folder folder = s.folder folder := rfl
@[simp] theorem node_raiseHighWater (n : Nat) (node : Fin 9) : (s.raiseHighWater n).node node = s.node node := rfl
@[simp] theorem profile_raiseHighWater (n : Nat) (q : ProfileLetter) : (s.raiseHighWater n).profile q = s.profile q := by cases q <;> rfl
@[simp] theorem minute_raiseHighWater (n : Nat) : (s.raiseHighWater n).minute = s.minute := rfl
@[simp] theorem today_raiseHighWater (n : Nat) : (s.raiseHighWater n).today = s.today := rfl
@[simp] theorem account_setTreatedDay (d : Nat) (j : Fin 64) : (s.setTreatedDay d).account j = s.account j := rfl
@[simp] theorem folder_setTreatedDay (d : Nat) (folder : Fin 16) : (s.setTreatedDay d).folder folder = s.folder folder := rfl
@[simp] theorem node_setTreatedDay (d : Nat) (node : Fin 9) : (s.setTreatedDay d).node node = s.node node := rfl
@[simp] theorem profile_setTreatedDay (d : Nat) (q : ProfileLetter) : (s.setTreatedDay d).profile q = s.profile q := by cases q <;> rfl
@[simp] theorem minute_setTreatedDay (d : Nat) : (s.setTreatedDay d).minute = s.minute := rfl
@[simp] theorem today_setTreatedDay (d : Nat) : (s.setTreatedDay d).today = s.today := rfl
@[simp] theorem account_setMinuteDue (d : Bool) (j : Fin 64) : (s.setMinuteDue d).account j = s.account j := rfl
@[simp] theorem folder_setMinuteDue (d : Bool) (folder : Fin 16) : (s.setMinuteDue d).folder folder = s.folder folder := rfl
@[simp] theorem node_setMinuteDue (d : Bool) (node : Fin 9) : (s.setMinuteDue d).node node = s.node node := rfl
@[simp] theorem profile_setMinuteDue (d : Bool) (q : ProfileLetter) : (s.setMinuteDue d).profile q = s.profile q := by cases q <;> rfl
@[simp] theorem minute_setMinuteDue (d : Bool) : (s.setMinuteDue d).minute = s.minute := rfl
@[simp] theorem today_setMinuteDue (d : Bool) : (s.setMinuteDue d).today = s.today := rfl
@[simp] theorem account_setClock (c : Nat) (j : Fin 64) : (s.setClock c).account j = s.account j := rfl
@[simp] theorem folder_setClock (c : Nat) (folder : Fin 16) : (s.setClock c).folder folder = s.folder folder := rfl
@[simp] theorem node_setClock (c : Nat) (node : Fin 9) : (s.setClock c).node node = s.node node := rfl
@[simp] theorem profile_setClock (c : Nat) (q : ProfileLetter) : (s.setClock c).profile q = s.profile q := by cases q <;> rfl
@[simp] theorem account_placeClock (v o : Nat) (j : Fin 64) : (placeClock v o s).account j = s.account j := rfl
@[simp] theorem folder_placeClock (v o : Nat) (folder : Fin 16) : (placeClock v o s).folder folder = s.folder folder := rfl
@[simp] theorem node_placeClock (v o : Nat) (node : Fin 9) : (placeClock v o s).node node = s.node node := rfl
@[simp] theorem profile_placeClock (v o : Nat) (q : ProfileLetter) : (placeClock v o s).profile q = s.profile q := by cases q <;> rfl
@[simp] theorem account_setAttention (f : AttentionFlag) (j : Fin 64) : (setAttention f s).account j = s.account j := rfl
@[simp] theorem folder_setAttention (f : AttentionFlag) (folder : Fin 16) : (setAttention f s).folder folder = s.folder folder := rfl
@[simp] theorem node_setAttention (f : AttentionFlag) (node : Fin 9) : (setAttention f s).node node = s.node node := rfl
@[simp] theorem profile_setAttention (f : AttentionFlag) (q : ProfileLetter) : (setAttention f s).profile q = s.profile q := by cases q <;> rfl
@[simp] theorem minute_setAttention (f : AttentionFlag) : (setAttention f s).minute = s.minute := rfl
@[simp] theorem today_setAttention (f : AttentionFlag) : (setAttention f s).today = s.today := rfl
@[simp] theorem account_setSubstances (l : List Substance) (j : Fin 64) : (s.setSubstances l).account j = s.account j := rfl
@[simp] theorem folder_setSubstances (l : List Substance) (folder : Fin 16) : (s.setSubstances l).folder folder = s.folder folder := rfl
@[simp] theorem node_setSubstances (l : List Substance) (node : Fin 9) : (s.setSubstances l).node node = s.node node := rfl
@[simp] theorem profile_setSubstances (l : List Substance) (q : ProfileLetter) : (s.setSubstances l).profile q = s.profile q := by cases q <;> rfl
@[simp] theorem minute_setSubstances (l : List Substance) : (s.setSubstances l).minute = s.minute := rfl
@[simp] theorem today_setSubstances (l : List Substance) : (s.setSubstances l).today = s.today := rfl
@[simp] theorem account_setCells (g h : Fin 16) (r : Ruling) (j : Fin 64) : (s.setCells g h r).account j = s.account j := rfl
@[simp] theorem folder_setCells (g h : Fin 16) (r : Ruling) (folder : Fin 16) : (s.setCells g h r).folder folder = s.folder folder := rfl
@[simp] theorem node_setCells (g h : Fin 16) (r : Ruling) (node : Fin 9) : (s.setCells g h r).node node = s.node node := rfl
@[simp] theorem profile_setCells (g h : Fin 16) (r : Ruling) (q : ProfileLetter) : (s.setCells g h r).profile q = s.profile q := by cases q <;> rfl
@[simp] theorem minute_setCells (g h : Fin 16) (r : Ruling) : (s.setCells g h r).minute = s.minute := rfl
@[simp] theorem today_setCells (g h : Fin 16) (r : Ruling) : (s.setCells g h r).today = s.today := rfl
@[simp] theorem account_setThreshold (k : Fin 15) (n : Nat) (j : Fin 64) : (s.setThreshold k n).account j = s.account j := rfl
@[simp] theorem folder_setThreshold (k : Fin 15) (n : Nat) (folder : Fin 16) : (s.setThreshold k n).folder folder = s.folder folder := rfl
@[simp] theorem node_setThreshold (k : Fin 15) (n : Nat) (node : Fin 9) : (s.setThreshold k n).node node = s.node node := rfl
@[simp] theorem profile_setThreshold (k : Fin 15) (n : Nat) (q : ProfileLetter) : (s.setThreshold k n).profile q = s.profile q := by cases q <;> rfl
@[simp] theorem minute_setThreshold (k : Fin 15) (n : Nat) : (s.setThreshold k n).minute = s.minute := rfl
@[simp] theorem today_setThreshold (k : Fin 15) (n : Nat) : (s.setThreshold k n).today = s.today := rfl
@[simp] theorem account_recordDenial (d : Denial) (j : Fin 64) : (recordDenial d s).account j = s.account j := rfl
@[simp] theorem folder_recordDenial (d : Denial) (folder : Fin 16) : (recordDenial d s).folder folder = s.folder folder := rfl
@[simp] theorem node_recordDenial (d : Denial) (node : Fin 9) : (recordDenial d s).node node = s.node node := rfl
@[simp] theorem profile_recordDenial (d : Denial) (q : ProfileLetter) : (recordDenial d s).profile q = s.profile q := by cases q <;> rfl
@[simp] theorem minute_recordDenial (d : Denial) : (recordDenial d s).minute = s.minute := rfl
@[simp] theorem today_recordDenial (d : Denial) : (recordDenial d s).today = s.today := rfl
@[simp] theorem account_shiftOut (b : List Byte) (j : Fin 64) : (shiftOut b s).account j = s.account j := rfl
@[simp] theorem folder_shiftOut (b : List Byte) (folder : Fin 16) : (shiftOut b s).folder folder = s.folder folder := rfl
@[simp] theorem node_shiftOut (b : List Byte) (node : Fin 9) : (shiftOut b s).node node = s.node node := rfl
@[simp] theorem profile_shiftOut (b : List Byte) (q : ProfileLetter) : (shiftOut b s).profile q = s.profile q := by cases q <;> rfl
@[simp] theorem minute_shiftOut (b : List Byte) : (shiftOut b s).minute = s.minute := rfl
@[simp] theorem today_shiftOut (b : List Byte) : (shiftOut b s).today = s.today := rfl
@[simp] theorem account_endTransaction (b : List Byte) (j : Fin 64) : (endTransaction b s).account j = s.account j := rfl
@[simp] theorem folder_endTransaction (b : List Byte) (folder : Fin 16) : (endTransaction b s).folder folder = s.folder folder := rfl
@[simp] theorem node_endTransaction (b : List Byte) (node : Fin 9) : (endTransaction b s).node node = s.node node := rfl
@[simp] theorem profile_endTransaction (b : List Byte) (q : ProfileLetter) : (endTransaction b s).profile q = s.profile q := by cases q <;> rfl
@[simp] theorem minute_endTransaction (b : List Byte) : (endTransaction b s).minute = s.minute := rfl
@[simp] theorem today_endTransaction (b : List Byte) : (endTransaction b s).today = s.today := rfl
@[simp] theorem account_frameReceived (n : Fin 9) (j : Fin 64) : (s.frameReceived n).account j = s.account j := rfl
@[simp] theorem folder_frameReceived (n : Fin 9) (folder : Fin 16) : (s.frameReceived n).folder folder = s.folder folder := rfl
@[simp] theorem node_frameReceived (n : Fin 9) (node : Fin 9) : (s.frameReceived n).node node = s.node node := rfl
@[simp] theorem profile_frameReceived (n : Fin 9) (q : ProfileLetter) : (s.frameReceived n).profile q = s.profile q := by cases q <;> rfl
@[simp] theorem minute_frameReceived (n : Fin 9) : (s.frameReceived n).minute = s.minute := rfl
@[simp] theorem today_frameReceived (n : Fin 9) : (s.frameReceived n).today = s.today := rfl
@[simp] theorem account_slotClosed (j : Fin 64) : s.slotClosed.account j = s.account j := rfl
@[simp] theorem folder_slotClosed (folder : Fin 16) : s.slotClosed.folder folder = s.folder folder := rfl
@[simp] theorem node_slotClosed (node : Fin 9) : s.slotClosed.node node = s.node node := rfl
@[simp] theorem profile_slotClosed (q : ProfileLetter) : s.slotClosed.profile q = s.profile q := by cases q <;> rfl
@[simp] theorem minute_slotClosed : s.slotClosed.minute = s.minute := rfl
@[simp] theorem today_slotClosed : s.slotClosed.today = s.today := rfl
@[simp] theorem account_refusedEnds (n : Nat) (j : Fin 64) : (refusedEnds n s).account j = s.account j := rfl
@[simp] theorem folder_refusedEnds (n : Nat) (folder : Fin 16) : (refusedEnds n s).folder folder = s.folder folder := rfl
@[simp] theorem node_refusedEnds (n : Nat) (node : Fin 9) : (refusedEnds n s).node node = s.node node := rfl
@[simp] theorem profile_refusedEnds (n : Nat) (q : ProfileLetter) : (refusedEnds n s).profile q = s.profile q := by cases q <;> rfl
@[simp] theorem minute_refusedEnds (n : Nat) : (refusedEnds n s).minute = s.minute := rfl
@[simp] theorem today_refusedEnds (n : Nat) : (refusedEnds n s).today = s.today := rfl
@[simp] theorem account_discardUnderway (j : Fin 64) : s.discardUnderway.account j = s.account j := rfl
@[simp] theorem folder_discardUnderway (folder : Fin 16) : s.discardUnderway.folder folder = s.folder folder := rfl
@[simp] theorem node_discardUnderway (node : Fin 9) : s.discardUnderway.node node = s.node node := rfl
@[simp] theorem profile_discardUnderway (q : ProfileLetter) : s.discardUnderway.profile q = s.profile q := by cases q <;> rfl
@[simp] theorem minute_discardUnderway : s.discardUnderway.minute = s.minute := rfl
@[simp] theorem today_discardUnderway : s.discardUnderway.today = s.today := rfl
@[simp] theorem account_nothingUnderway (j : Fin 64) : s.nothingUnderway.account j = s.account j := rfl
@[simp] theorem folder_nothingUnderway (folder : Fin 16) : s.nothingUnderway.folder folder = s.folder folder := rfl
@[simp] theorem node_nothingUnderway (node : Fin 9) : s.nothingUnderway.node node = s.node node := rfl
@[simp] theorem profile_nothingUnderway (q : ProfileLetter) : s.nothingUnderway.profile q = s.profile q := by cases q <;> rfl
@[simp] theorem minute_nothingUnderway : s.nothingUnderway.minute = s.minute := rfl
@[simp] theorem today_nothingUnderway : s.nothingUnderway.today = s.today := rfl
@[simp] theorem account_portMoved (a : Option Byte) (r : Bool) (x : Option Taking) (b : List Byte) (j : Fin 64) : (s.portMoved a r x b).account j = s.account j := rfl
@[simp] theorem folder_portMoved (a : Option Byte) (r : Bool) (x : Option Taking) (b : List Byte) (folder : Fin 16) : (s.portMoved a r x b).folder folder = s.folder folder := rfl
@[simp] theorem node_portMoved (a : Option Byte) (r : Bool) (x : Option Taking) (b : List Byte) (node : Fin 9) : (s.portMoved a r x b).node node = s.node node := rfl
@[simp] theorem profile_portMoved (a : Option Byte) (r : Bool) (x : Option Taking) (b : List Byte) (q : ProfileLetter) : (s.portMoved a r x b).profile q = s.profile q := by cases q <;> rfl
@[simp] theorem minute_portMoved (a : Option Byte) (r : Bool) (x : Option Taking) (b : List Byte) : (s.portMoved a r x b).minute = s.minute := rfl
@[simp] theorem today_portMoved (a : Option Byte) (r : Bool) (x : Option Taking) (b : List Byte) : (s.portMoved a r x b).today = s.today := rfl
@[simp] theorem account_takeFrame (n : Fin 9) (j : Fin 64) : (takeFrame n s).account j = s.account j := rfl
@[simp] theorem folder_takeFrame (n : Fin 9) (folder : Fin 16) : (takeFrame n s).folder folder = s.folder folder := rfl
@[simp] theorem node_takeFrame (n : Fin 9) (node : Fin 9) : (takeFrame n s).node node = s.node node := rfl
@[simp] theorem profile_takeFrame (n : Fin 9) (q : ProfileLetter) : (takeFrame n s).profile q = s.profile q := by cases q <;> rfl
@[simp] theorem minute_takeFrame (n : Fin 9) : (takeFrame n s).minute = s.minute := rfl
@[simp] theorem today_takeFrame (n : Fin 9) : (takeFrame n s).today = s.today := rfl
@[simp] theorem account_setProfile (p : ProfileLetter) (x : LimitProfile) (j : Fin 64) : (s.setProfile p x).account j = s.account j := by
  cases p <;> rfl
@[simp] theorem folder_setProfile (p : ProfileLetter) (x : LimitProfile) (folder : Fin 16) : (s.setProfile p x).folder folder = s.folder folder := by
  cases p <;> rfl
@[simp] theorem node_setProfile (p : ProfileLetter) (x : LimitProfile) (node : Fin 9) : (s.setProfile p x).node node = s.node node := by
  cases p <;> rfl
@[simp] theorem minute_setProfile (p : ProfileLetter) (x : LimitProfile) : (s.setProfile p x).minute = s.minute := by
  cases p <;> rfl
@[simp] theorem today_setProfile (p : ProfileLetter) (x : LimitProfile) : (s.setProfile p x).today = s.today := by
  cases p <;> rfl
@[simp] theorem account_placeReply (o : OfficeFrame) (c : Byte) (a : Answer) (j : Fin 64) : (placeReply o c a).account j = a.state.account j := rfl
@[simp] theorem folder_placeReply (o : OfficeFrame) (c : Byte) (a : Answer) (folder : Fin 16) : (placeReply o c a).folder folder = a.state.folder folder := rfl
@[simp] theorem node_placeReply (o : OfficeFrame) (c : Byte) (a : Answer) (node : Fin 9) : (placeReply o c a).node node = a.state.node node := rfl
@[simp] theorem profile_placeReply (o : OfficeFrame) (c : Byte) (a : Answer) (q : ProfileLetter) : (placeReply o c a).profile q = a.state.profile q := by cases q <;> rfl
@[simp] theorem minute_placeReply (o : OfficeFrame) (c : Byte) (a : Answer) : (placeReply o c a).minute = a.state.minute := rfl
@[simp] theorem today_placeReply (o : OfficeFrame) (c : Byte) (a : Answer) : (placeReply o c a).today = a.state.today := rfl

/-! ## Reading back -/

theorem account_setAccount_self (i : Fin 64) (a : Account) : (s.setAccount i a).account i = a := by
  simp [State.account]

theorem account_setAccount_ne {i j : Fin 64} (a : Account) (h : i ≠ j) :
    (s.setAccount i a).account j = s.account j := by
  have h' : i.val ≠ j.val := fun e => h (Fin.ext e)
  simp [State.account, h']

@[simp] theorem account_setAccount (i j : Fin 64) (a : Account) :
    (s.setAccount i a).account j = if i = j then a else s.account j := by
  by_cases h : i = j
  · subst h; simp [account_setAccount_self]
  · simp [account_setAccount_ne s a h, h]

@[simp] theorem folder_setFolder (f g : Fin 16) (x : Folder) :
    (s.setFolder f x).folder g = if f = g then x else s.folder g := by
  by_cases h : f = g
  · subst h; simp [State.folder]
  · have h' : f.val ≠ g.val := fun e => h (Fin.ext e)
    simp [State.folder, h', h]

@[simp] theorem node_setNode (n k : Fin 9) (e : NodeEntry) :
    (s.setNode n e).node k = if n = k then e else s.node k := by
  by_cases h : n = k
  · subst h; simp [State.node]
  · have h' : n.val ≠ k.val := fun e => h (Fin.ext e)
    simp [State.node, h', h]

@[simp] theorem profile_setProfile (p q : ProfileLetter) (x : LimitProfile) :
    (s.setProfile p x).profile q = if p = q then x else s.profile q := by
  cases p <;> cases q <;> rfl

/-- A record read through a state with the same table is the same record. -/
theorem account_congr {s t : State} (h : t.accounts = s.accounts) (i : Fin 64) : t.account i = s.account i := by
  simp [State.account, h]

theorem folder_congr {s t : State} (h : t.folders = s.folders) (f : Fin 16) : t.folder f = s.folder f := by
  simp [State.folder, h]

end Sys2Proof.Machine
end

