-- ==== Sys2Proof/Laws/Frames.lean ====
section
/-! SUPPORT. Frames of the shared operations: which records each leaves as they were. -/

namespace Sys2Proof.Machine

/-! ## Passes -/

/-- What one act keeps of a state, a fold of acts keeps. -/
theorem foldl_keeps {α β : Type} (g : State → β) (f : α → State → State) (h : ∀ i s, g (f i s) = g s) (l : List α) :
    ∀ s, g (l.foldl (fun s i => f i s) s) = g s := by
  induction l with
  | nil => intro s; rfl
  | cons i rest ih => intro s; simp only [List.foldl_cons]; rw [ih, h]

/-- What one act establishes again, a fold of acts establishes again. -/
theorem foldl_invariant {α : Type} (P : State → Prop) (f : α → State → State) (h : ∀ i s, P s → P (f i s))
    (l : List α) : ∀ s, P s → P (l.foldl (fun s i => f i s) s) := by
  induction l with
  | nil => intro s hs; exact hs
  | cons i rest ih => intro s hs; exact ih _ (h i s hs)

theorem overAccounts_keeps {β : Type} (g : State → β) (f : Fin 64 → State → State) (h : ∀ i s, g (f i s) = g s)
    (s : State) : g (overAccounts f s) = g s := foldl_keeps g f h _ s

theorem overFolders_keeps {β : Type} (g : State → β) (f : Fin 16 → State → State) (h : ∀ i s, g (f i s) = g s)
    (s : State) : g (overFolders f s) = g s := foldl_keeps g f h _ s

theorem overAccounts_invariant (P : State → Prop) (f : Fin 64 → State → State) (h : ∀ i s, P s → P (f i s))
    (s : State) (hs : P s) : P (overAccounts f s) := foldl_invariant P f h _ s hs

theorem overFolders_invariant (P : State → Prop) (f : Fin 16 → State → State) (h : ∀ i s, P s → P (f i s))
    (s : State) (hs : P s) : P (overFolders f s) := foldl_invariant P f h _ s hs

variable (s : State)

/-! `raiseAlarm` -/

@[simp] theorem raiseAlarm_tc (i : Fin 64) (k : AlarmFlag) : (raiseAlarm i k s).tc = s.tc := by
  unfold raiseAlarm; split <;> simp
@[simp] theorem raiseAlarm_hu (i : Fin 64) (k : AlarmFlag) : (raiseAlarm i k s).hu = s.hu := by
  unfold raiseAlarm; split <;> simp
@[simp] theorem raiseAlarm_folders (i : Fin 64) (k : AlarmFlag) : (raiseAlarm i k s).folders = s.folders := by
  unfold raiseAlarm; split <;> simp
@[simp] theorem raiseAlarm_gcu (i : Fin 64) (k : AlarmFlag) : (raiseAlarm i k s).gcu = s.gcu := by
  unfold raiseAlarm; split <;> simp
@[simp] theorem raiseAlarm_mr (i : Fin 64) (k : AlarmFlag) : (raiseAlarm i k s).mr = s.mr := by
  unfold raiseAlarm; split <;> simp
@[simp] theorem raiseAlarm_dl (i : Fin 64) (k : AlarmFlag) : (raiseAlarm i k s).dl = s.dl := by
  unfold raiseAlarm; split <;> simp
@[simp] theorem raiseAlarm_rc (i : Fin 64) (k : AlarmFlag) : (raiseAlarm i k s).rc = s.rc := by
  unfold raiseAlarm; split <;> simp
@[simp] theorem raiseAlarm_rlc (i : Fin 64) (k : AlarmFlag) : (raiseAlarm i k s).rlc = s.rlc := by
  unfold raiseAlarm; split <;> simp
@[simp] theorem raiseAlarm_mc (i : Fin 64) (k : AlarmFlag) : (raiseAlarm i k s).mc = s.mc := by
  unfold raiseAlarm; split <;> simp
@[simp] theorem raiseAlarm_pins (i : Fin 64) (k : AlarmFlag) : (raiseAlarm i k s).pins = s.pins := by
  unfold raiseAlarm; split <;> simp
@[simp] theorem raiseAlarm_underway (i : Fin 64) (k : AlarmFlag) : (raiseAlarm i k s).underway = s.underway := by
  unfold raiseAlarm; split <;> simp
@[simp] theorem raiseAlarm_out (i : Fin 64) (k : AlarmFlag) : (raiseAlarm i k s).out = s.out := by
  unfold raiseAlarm; split <;> simp
@[simp] theorem raiseAlarm_pending (i : Fin 64) (k : AlarmFlag) : (raiseAlarm i k s).pending = s.pending := by
  unfold raiseAlarm; split <;> simp
@[simp] theorem raiseAlarm_op_reply (i : Fin 64) (k : AlarmFlag) : (raiseAlarm i k s).op.reply = s.op.reply := by
  unfold raiseAlarm; split <;> simp
@[simp] theorem raiseAlarm_op_enables (i : Fin 64) (k : AlarmFlag) : (raiseAlarm i k s).op.enables = s.op.enables := by
  unfold raiseAlarm; split <;> simp
@[simp] theorem raiseAlarm_minute (i : Fin 64) (k : AlarmFlag) : (raiseAlarm i k s).minute = s.minute := by
  unfold raiseAlarm; split <;> simp
@[simp] theorem raiseAlarm_today (i : Fin 64) (k : AlarmFlag) : (raiseAlarm i k s).today = s.today := by
  unfold raiseAlarm; split <;> simp

/-! `insertAlarm` -/

@[simp] theorem insertAlarm_tc (e : AlarmEntry) : (s.insertAlarm e).tc = s.tc := by
  simp [State.insertAlarm]
@[simp] theorem insertAlarm_accounts (e : AlarmEntry) : (s.insertAlarm e).accounts = s.accounts := by
  simp [State.insertAlarm]
@[simp] theorem insertAlarm_folders (e : AlarmEntry) : (s.insertAlarm e).folders = s.folders := by
  simp [State.insertAlarm]
@[simp] theorem insertAlarm_gcu (e : AlarmEntry) : (s.insertAlarm e).gcu = s.gcu := by
  simp [State.insertAlarm]
@[simp] theorem insertAlarm_mr (e : AlarmEntry) : (s.insertAlarm e).mr = s.mr := by
  simp [State.insertAlarm]
@[simp] theorem insertAlarm_dl (e : AlarmEntry) : (s.insertAlarm e).dl = s.dl := by
  simp [State.insertAlarm]
@[simp] theorem insertAlarm_rc (e : AlarmEntry) : (s.insertAlarm e).rc = s.rc := by
  simp [State.insertAlarm]
@[simp] theorem insertAlarm_rlc (e : AlarmEntry) : (s.insertAlarm e).rlc = s.rlc := by
  simp [State.insertAlarm]
@[simp] theorem insertAlarm_op (e : AlarmEntry) : (s.insertAlarm e).op = s.op := by
  simp [State.insertAlarm]
@[simp] theorem insertAlarm_mc (e : AlarmEntry) : (s.insertAlarm e).mc = s.mc := by
  simp [State.insertAlarm]
@[simp] theorem insertAlarm_pins (e : AlarmEntry) : (s.insertAlarm e).pins = s.pins := by
  simp [State.insertAlarm]
@[simp] theorem insertAlarm_underway (e : AlarmEntry) : (s.insertAlarm e).underway = s.underway := by
  simp [State.insertAlarm]
@[simp] theorem insertAlarm_out (e : AlarmEntry) : (s.insertAlarm e).out = s.out := by
  simp [State.insertAlarm]
@[simp] theorem insertAlarm_pending (e : AlarmEntry) : (s.insertAlarm e).pending = s.pending := by
  simp [State.insertAlarm]
@[simp] theorem insertAlarm_hu_profileA (e : AlarmEntry) : (s.insertAlarm e).hu.profileA = s.hu.profileA := by
  simp [State.insertAlarm]
@[simp] theorem insertAlarm_hu_profileB (e : AlarmEntry) : (s.insertAlarm e).hu.profileB = s.hu.profileB := by
  simp [State.insertAlarm]
@[simp] theorem insertAlarm_minute (e : AlarmEntry) : (s.insertAlarm e).minute = s.minute := by
  simp [State.insertAlarm]
@[simp] theorem insertAlarm_today (e : AlarmEntry) : (s.insertAlarm e).today = s.today := by
  simp [State.insertAlarm]

/-! `removeAlarm` -/

@[simp] theorem removeAlarm_tc (i : Fin 64) : (s.removeAlarm i).tc = s.tc := by
  simp [State.removeAlarm]
@[simp] theorem removeAlarm_accounts (i : Fin 64) : (s.removeAlarm i).accounts = s.accounts := by
  simp [State.removeAlarm]
@[simp] theorem removeAlarm_folders (i : Fin 64) : (s.removeAlarm i).folders = s.folders := by
  simp [State.removeAlarm]
@[simp] theorem removeAlarm_gcu (i : Fin 64) : (s.removeAlarm i).gcu = s.gcu := by
  simp [State.removeAlarm]
@[simp] theorem removeAlarm_mr (i : Fin 64) : (s.removeAlarm i).mr = s.mr := by
  simp [State.removeAlarm]
@[simp] theorem removeAlarm_dl (i : Fin 64) : (s.removeAlarm i).dl = s.dl := by
  simp [State.removeAlarm]
@[simp] theorem removeAlarm_rc (i : Fin 64) : (s.removeAlarm i).rc = s.rc := by
  simp [State.removeAlarm]
@[simp] theorem removeAlarm_rlc (i : Fin 64) : (s.removeAlarm i).rlc = s.rlc := by
  simp [State.removeAlarm]
@[simp] theorem removeAlarm_op (i : Fin 64) : (s.removeAlarm i).op = s.op := by
  simp [State.removeAlarm]
@[simp] theorem removeAlarm_mc (i : Fin 64) : (s.removeAlarm i).mc = s.mc := by
  simp [State.removeAlarm]
@[simp] theorem removeAlarm_pins (i : Fin 64) : (s.removeAlarm i).pins = s.pins := by
  simp [State.removeAlarm]
@[simp] theorem removeAlarm_underway (i : Fin 64) : (s.removeAlarm i).underway = s.underway := by
  simp [State.removeAlarm]
@[simp] theorem removeAlarm_out (i : Fin 64) : (s.removeAlarm i).out = s.out := by
  simp [State.removeAlarm]
@[simp] theorem removeAlarm_pending (i : Fin 64) : (s.removeAlarm i).pending = s.pending := by
  simp [State.removeAlarm]
@[simp] theorem removeAlarm_hu_profileA (i : Fin 64) : (s.removeAlarm i).hu.profileA = s.hu.profileA := by
  simp [State.removeAlarm]
@[simp] theorem removeAlarm_hu_profileB (i : Fin 64) : (s.removeAlarm i).hu.profileB = s.hu.profileB := by
  simp [State.removeAlarm]
@[simp] theorem removeAlarm_minute (i : Fin 64) : (s.removeAlarm i).minute = s.minute := by
  simp [State.removeAlarm]
@[simp] theorem removeAlarm_today (i : Fin 64) : (s.removeAlarm i).today = s.today := by
  simp [State.removeAlarm]

/-! `placeAlarm` -/

@[simp] theorem placeAlarm_tc (m : Nat) (i : Fin 64) : (placeAlarm m i s).tc = s.tc := by
  unfold placeAlarm; dsimp only; (repeat' split) <;> simp
@[simp] theorem placeAlarm_folders (m : Nat) (i : Fin 64) : (placeAlarm m i s).folders = s.folders := by
  unfold placeAlarm; dsimp only; (repeat' split) <;> simp
@[simp] theorem placeAlarm_gcu (m : Nat) (i : Fin 64) : (placeAlarm m i s).gcu = s.gcu := by
  unfold placeAlarm; dsimp only; (repeat' split) <;> simp
@[simp] theorem placeAlarm_mr (m : Nat) (i : Fin 64) : (placeAlarm m i s).mr = s.mr := by
  unfold placeAlarm; dsimp only; (repeat' split) <;> simp
@[simp] theorem placeAlarm_dl (m : Nat) (i : Fin 64) : (placeAlarm m i s).dl = s.dl := by
  unfold placeAlarm; dsimp only; (repeat' split) <;> simp
@[simp] theorem placeAlarm_rc (m : Nat) (i : Fin 64) : (placeAlarm m i s).rc = s.rc := by
  unfold placeAlarm; dsimp only; (repeat' split) <;> simp
@[simp] theorem placeAlarm_rlc (m : Nat) (i : Fin 64) : (placeAlarm m i s).rlc = s.rlc := by
  unfold placeAlarm; dsimp only; (repeat' split) <;> simp
@[simp] theorem placeAlarm_mc (m : Nat) (i : Fin 64) : (placeAlarm m i s).mc = s.mc := by
  unfold placeAlarm; dsimp only; (repeat' split) <;> simp
@[simp] theorem placeAlarm_pins (m : Nat) (i : Fin 64) : (placeAlarm m i s).pins = s.pins := by
  unfold placeAlarm; dsimp only; (repeat' split) <;> simp
@[simp] theorem placeAlarm_underway (m : Nat) (i : Fin 64) : (placeAlarm m i s).underway = s.underway := by
  unfold placeAlarm; dsimp only; (repeat' split) <;> simp
@[simp] theorem placeAlarm_out (m : Nat) (i : Fin 64) : (placeAlarm m i s).out = s.out := by
  unfold placeAlarm; dsimp only; (repeat' split) <;> simp
@[simp] theorem placeAlarm_pending (m : Nat) (i : Fin 64) : (placeAlarm m i s).pending = s.pending := by
  unfold placeAlarm; dsimp only; (repeat' split) <;> simp
@[simp] theorem placeAlarm_hu_profileA (m : Nat) (i : Fin 64) : (placeAlarm m i s).hu.profileA = s.hu.profileA := by
  unfold placeAlarm; dsimp only; (repeat' split) <;> simp
@[simp] theorem placeAlarm_hu_profileB (m : Nat) (i : Fin 64) : (placeAlarm m i s).hu.profileB = s.hu.profileB := by
  unfold placeAlarm; dsimp only; (repeat' split) <;> simp
@[simp] theorem placeAlarm_op_reply (m : Nat) (i : Fin 64) : (placeAlarm m i s).op.reply = s.op.reply := by
  unfold placeAlarm; dsimp only; (repeat' split) <;> simp
@[simp] theorem placeAlarm_op_enables (m : Nat) (i : Fin 64) : (placeAlarm m i s).op.enables = s.op.enables := by
  unfold placeAlarm; dsimp only; (repeat' split) <;> simp
@[simp] theorem placeAlarm_minute (m : Nat) (i : Fin 64) : (placeAlarm m i s).minute = s.minute := by
  unfold placeAlarm; dsimp only; (repeat' split) <;> simp
@[simp] theorem placeAlarm_today (m : Nat) (i : Fin 64) : (placeAlarm m i s).today = s.today := by
  unfold placeAlarm; dsimp only; (repeat' split) <;> simp

/-! `recomputeAt` -/

@[simp] theorem recomputeAt_tc (m : Nat) (i : Fin 64) : (recomputeAt m i s).tc = s.tc := by
  simp [recomputeAt]
@[simp] theorem recomputeAt_folders (m : Nat) (i : Fin 64) : (recomputeAt m i s).folders = s.folders := by
  simp [recomputeAt]
@[simp] theorem recomputeAt_gcu (m : Nat) (i : Fin 64) : (recomputeAt m i s).gcu = s.gcu := by
  simp [recomputeAt]
@[simp] theorem recomputeAt_mr (m : Nat) (i : Fin 64) : (recomputeAt m i s).mr = s.mr := by
  simp [recomputeAt]
@[simp] theorem recomputeAt_dl (m : Nat) (i : Fin 64) : (recomputeAt m i s).dl = s.dl := by
  simp [recomputeAt]
@[simp] theorem recomputeAt_rc (m : Nat) (i : Fin 64) : (recomputeAt m i s).rc = s.rc := by
  simp [recomputeAt]
@[simp] theorem recomputeAt_rlc (m : Nat) (i : Fin 64) : (recomputeAt m i s).rlc = s.rlc := by
  simp [recomputeAt]
@[simp] theorem recomputeAt_mc (m : Nat) (i : Fin 64) : (recomputeAt m i s).mc = s.mc := by
  simp [recomputeAt]
@[simp] theorem recomputeAt_pins (m : Nat) (i : Fin 64) : (recomputeAt m i s).pins = s.pins := by
  simp [recomputeAt]
@[simp] theorem recomputeAt_underway (m : Nat) (i : Fin 64) : (recomputeAt m i s).underway = s.underway := by
  simp [recomputeAt]
@[simp] theorem recomputeAt_out (m : Nat) (i : Fin 64) : (recomputeAt m i s).out = s.out := by
  simp [recomputeAt]
@[simp] theorem recomputeAt_pending (m : Nat) (i : Fin 64) : (recomputeAt m i s).pending = s.pending := by
  simp [recomputeAt]
@[simp] theorem recomputeAt_hu_profileA (m : Nat) (i : Fin 64) : (recomputeAt m i s).hu.profileA = s.hu.profileA := by
  simp [recomputeAt]
@[simp] theorem recomputeAt_hu_profileB (m : Nat) (i : Fin 64) : (recomputeAt m i s).hu.profileB = s.hu.profileB := by
  simp [recomputeAt]
@[simp] theorem recomputeAt_op_reply (m : Nat) (i : Fin 64) : (recomputeAt m i s).op.reply = s.op.reply := by
  simp [recomputeAt]
@[simp] theorem recomputeAt_op_enables (m : Nat) (i : Fin 64) : (recomputeAt m i s).op.enables = s.op.enables := by
  simp [recomputeAt]
@[simp] theorem recomputeAt_minute (m : Nat) (i : Fin 64) : (recomputeAt m i s).minute = s.minute := by
  simp [recomputeAt]
@[simp] theorem recomputeAt_today (m : Nat) (i : Fin 64) : (recomputeAt m i s).today = s.today := by
  simp [recomputeAt]

/-! `recompute` -/

@[simp] theorem recompute_tc (i : Fin 64) : (recompute i s).tc = s.tc := by
  simp [recompute]
@[simp] theorem recompute_folders (i : Fin 64) : (recompute i s).folders = s.folders := by
  simp [recompute]
@[simp] theorem recompute_gcu (i : Fin 64) : (recompute i s).gcu = s.gcu := by
  simp [recompute]
@[simp] theorem recompute_mr (i : Fin 64) : (recompute i s).mr = s.mr := by
  simp [recompute]
@[simp] theorem recompute_dl (i : Fin 64) : (recompute i s).dl = s.dl := by
  simp [recompute]
@[simp] theorem recompute_rc (i : Fin 64) : (recompute i s).rc = s.rc := by
  simp [recompute]
@[simp] theorem recompute_rlc (i : Fin 64) : (recompute i s).rlc = s.rlc := by
  simp [recompute]
@[simp] theorem recompute_mc (i : Fin 64) : (recompute i s).mc = s.mc := by
  simp [recompute]
@[simp] theorem recompute_pins (i : Fin 64) : (recompute i s).pins = s.pins := by
  simp [recompute]
@[simp] theorem recompute_underway (i : Fin 64) : (recompute i s).underway = s.underway := by
  simp [recompute]
@[simp] theorem recompute_out (i : Fin 64) : (recompute i s).out = s.out := by
  simp [recompute]
@[simp] theorem recompute_pending (i : Fin 64) : (recompute i s).pending = s.pending := by
  simp [recompute]
@[simp] theorem recompute_hu_profileA (i : Fin 64) : (recompute i s).hu.profileA = s.hu.profileA := by
  simp [recompute]
@[simp] theorem recompute_hu_profileB (i : Fin 64) : (recompute i s).hu.profileB = s.hu.profileB := by
  simp [recompute]
@[simp] theorem recompute_op_reply (i : Fin 64) : (recompute i s).op.reply = s.op.reply := by
  simp [recompute]
@[simp] theorem recompute_op_enables (i : Fin 64) : (recompute i s).op.enables = s.op.enables := by
  simp [recompute]
@[simp] theorem recompute_minute (i : Fin 64) : (recompute i s).minute = s.minute := by
  simp [recompute]
@[simp] theorem recompute_today (i : Fin 64) : (recompute i s).today = s.today := by
  simp [recompute]

/-! `recomputeAll` -/

@[simp] theorem recomputeAll_tc : (recomputeAll s).tc = s.tc := by
  unfold recomputeAll; exact overAccounts_keeps (fun s => s.tc) _ (fun i s => by split <;> simp) s
@[simp] theorem recomputeAll_folders : (recomputeAll s).folders = s.folders := by
  unfold recomputeAll; exact overAccounts_keeps (fun s => s.folders) _ (fun i s => by split <;> simp) s
@[simp] theorem recomputeAll_gcu : (recomputeAll s).gcu = s.gcu := by
  unfold recomputeAll; exact overAccounts_keeps (fun s => s.gcu) _ (fun i s => by split <;> simp) s
@[simp] theorem recomputeAll_mr : (recomputeAll s).mr = s.mr := by
  unfold recomputeAll; exact overAccounts_keeps (fun s => s.mr) _ (fun i s => by split <;> simp) s
@[simp] theorem recomputeAll_dl : (recomputeAll s).dl = s.dl := by
  unfold recomputeAll; exact overAccounts_keeps (fun s => s.dl) _ (fun i s => by split <;> simp) s
@[simp] theorem recomputeAll_rc : (recomputeAll s).rc = s.rc := by
  unfold recomputeAll; exact overAccounts_keeps (fun s => s.rc) _ (fun i s => by split <;> simp) s
@[simp] theorem recomputeAll_rlc : (recomputeAll s).rlc = s.rlc := by
  unfold recomputeAll; exact overAccounts_keeps (fun s => s.rlc) _ (fun i s => by split <;> simp) s
@[simp] theorem recomputeAll_mc : (recomputeAll s).mc = s.mc := by
  unfold recomputeAll; exact overAccounts_keeps (fun s => s.mc) _ (fun i s => by split <;> simp) s
@[simp] theorem recomputeAll_pins : (recomputeAll s).pins = s.pins := by
  unfold recomputeAll; exact overAccounts_keeps (fun s => s.pins) _ (fun i s => by split <;> simp) s
@[simp] theorem recomputeAll_underway : (recomputeAll s).underway = s.underway := by
  unfold recomputeAll; exact overAccounts_keeps (fun s => s.underway) _ (fun i s => by split <;> simp) s
@[simp] theorem recomputeAll_out : (recomputeAll s).out = s.out := by
  unfold recomputeAll; exact overAccounts_keeps (fun s => s.out) _ (fun i s => by split <;> simp) s
@[simp] theorem recomputeAll_pending : (recomputeAll s).pending = s.pending := by
  unfold recomputeAll; exact overAccounts_keeps (fun s => s.pending) _ (fun i s => by split <;> simp) s
@[simp] theorem recomputeAll_hu_profileA : (recomputeAll s).hu.profileA = s.hu.profileA := by
  unfold recomputeAll; exact overAccounts_keeps (fun s => s.hu.profileA) _ (fun i s => by split <;> simp) s
@[simp] theorem recomputeAll_hu_profileB : (recomputeAll s).hu.profileB = s.hu.profileB := by
  unfold recomputeAll; exact overAccounts_keeps (fun s => s.hu.profileB) _ (fun i s => by split <;> simp) s
@[simp] theorem recomputeAll_op_reply : (recomputeAll s).op.reply = s.op.reply := by
  unfold recomputeAll; exact overAccounts_keeps (fun s => s.op.reply) _ (fun i s => by split <;> simp) s
@[simp] theorem recomputeAll_op_enables : (recomputeAll s).op.enables = s.op.enables := by
  unfold recomputeAll; exact overAccounts_keeps (fun s => s.op.enables) _ (fun i s => by split <;> simp) s
@[simp] theorem recomputeAll_minute : (recomputeAll s).minute = s.minute := by
  unfold recomputeAll; exact overAccounts_keeps (fun s => s.minute) _ (fun i s => by split <;> simp) s
@[simp] theorem recomputeAll_today : (recomputeAll s).today = s.today := by
  unfold recomputeAll; exact overAccounts_keeps (fun s => s.today) _ (fun i s => by split <;> simp) s

/-! `expiryTest` -/

@[simp] theorem expiryTest_tc (i : Fin 64) : (expiryTest i s).tc = s.tc := by
  unfold expiryTest; split <;> simp
@[simp] theorem expiryTest_hu (i : Fin 64) : (expiryTest i s).hu = s.hu := by
  unfold expiryTest; split <;> simp
@[simp] theorem expiryTest_folders (i : Fin 64) : (expiryTest i s).folders = s.folders := by
  unfold expiryTest; split <;> simp
@[simp] theorem expiryTest_gcu (i : Fin 64) : (expiryTest i s).gcu = s.gcu := by
  unfold expiryTest; split <;> simp
@[simp] theorem expiryTest_mr (i : Fin 64) : (expiryTest i s).mr = s.mr := by
  unfold expiryTest; split <;> simp
@[simp] theorem expiryTest_dl (i : Fin 64) : (expiryTest i s).dl = s.dl := by
  unfold expiryTest; split <;> simp
@[simp] theorem expiryTest_rc (i : Fin 64) : (expiryTest i s).rc = s.rc := by
  unfold expiryTest; split <;> simp
@[simp] theorem expiryTest_rlc (i : Fin 64) : (expiryTest i s).rlc = s.rlc := by
  unfold expiryTest; split <;> simp
@[simp] theorem expiryTest_mc (i : Fin 64) : (expiryTest i s).mc = s.mc := by
  unfold expiryTest; split <;> simp
@[simp] theorem expiryTest_pins (i : Fin 64) : (expiryTest i s).pins = s.pins := by
  unfold expiryTest; split <;> simp
@[simp] theorem expiryTest_underway (i : Fin 64) : (expiryTest i s).underway = s.underway := by
  unfold expiryTest; split <;> simp
@[simp] theorem expiryTest_out (i : Fin 64) : (expiryTest i s).out = s.out := by
  unfold expiryTest; split <;> simp
@[simp] theorem expiryTest_pending (i : Fin 64) : (expiryTest i s).pending = s.pending := by
  unfold expiryTest; split <;> simp
@[simp] theorem expiryTest_op_reply (i : Fin 64) : (expiryTest i s).op.reply = s.op.reply := by
  unfold expiryTest; split <;> simp
@[simp] theorem expiryTest_op_enables (i : Fin 64) : (expiryTest i s).op.enables = s.op.enables := by
  unfold expiryTest; split <;> simp
@[simp] theorem expiryTest_minute (i : Fin 64) : (expiryTest i s).minute = s.minute := by
  unfold expiryTest; split <;> simp
@[simp] theorem expiryTest_today (i : Fin 64) : (expiryTest i s).today = s.today := by
  unfold expiryTest; split <;> simp

/-! `fireEntry` -/

@[simp] theorem fireEntry_tc (e : AlarmEntry) : (fireEntry e s).tc = s.tc := by
  unfold fireEntry; split <;> simp
@[simp] theorem fireEntry_folders (e : AlarmEntry) : (fireEntry e s).folders = s.folders := by
  unfold fireEntry; split <;> simp
@[simp] theorem fireEntry_gcu (e : AlarmEntry) : (fireEntry e s).gcu = s.gcu := by
  unfold fireEntry; split <;> simp
@[simp] theorem fireEntry_mr (e : AlarmEntry) : (fireEntry e s).mr = s.mr := by
  unfold fireEntry; split <;> simp
@[simp] theorem fireEntry_dl (e : AlarmEntry) : (fireEntry e s).dl = s.dl := by
  unfold fireEntry; split <;> simp
@[simp] theorem fireEntry_rc (e : AlarmEntry) : (fireEntry e s).rc = s.rc := by
  unfold fireEntry; split <;> simp
@[simp] theorem fireEntry_rlc (e : AlarmEntry) : (fireEntry e s).rlc = s.rlc := by
  unfold fireEntry; split <;> simp
@[simp] theorem fireEntry_mc (e : AlarmEntry) : (fireEntry e s).mc = s.mc := by
  unfold fireEntry; split <;> simp
@[simp] theorem fireEntry_pins (e : AlarmEntry) : (fireEntry e s).pins = s.pins := by
  unfold fireEntry; split <;> simp
@[simp] theorem fireEntry_underway (e : AlarmEntry) : (fireEntry e s).underway = s.underway := by
  unfold fireEntry; split <;> simp
@[simp] theorem fireEntry_out (e : AlarmEntry) : (fireEntry e s).out = s.out := by
  unfold fireEntry; split <;> simp
@[simp] theorem fireEntry_pending (e : AlarmEntry) : (fireEntry e s).pending = s.pending := by
  unfold fireEntry; split <;> simp
@[simp] theorem fireEntry_hu_profileA (e : AlarmEntry) : (fireEntry e s).hu.profileA = s.hu.profileA := by
  unfold fireEntry; split <;> simp
@[simp] theorem fireEntry_hu_profileB (e : AlarmEntry) : (fireEntry e s).hu.profileB = s.hu.profileB := by
  unfold fireEntry; split <;> simp
@[simp] theorem fireEntry_op_reply (e : AlarmEntry) : (fireEntry e s).op.reply = s.op.reply := by
  unfold fireEntry; split <;> simp
@[simp] theorem fireEntry_op_enables (e : AlarmEntry) : (fireEntry e s).op.enables = s.op.enables := by
  unfold fireEntry; split <;> simp
@[simp] theorem fireEntry_minute (e : AlarmEntry) : (fireEntry e s).minute = s.minute := by
  unfold fireEntry; split <;> simp
@[simp] theorem fireEntry_today (e : AlarmEntry) : (fireEntry e s).today = s.today := by
  unfold fireEntry; split <;> simp

/-! `fireDue` -/

@[simp] theorem fireDue_tc (m fuel : Nat) : ∀ s, (fireDue m fuel s).tc = s.tc := by
  induction fuel with
  | zero => intro s; rfl
  | succ n ih => intro s; unfold fireDue; (repeat' split) <;> simp [ih]
@[simp] theorem fireDue_folders (m fuel : Nat) : ∀ s, (fireDue m fuel s).folders = s.folders := by
  induction fuel with
  | zero => intro s; rfl
  | succ n ih => intro s; unfold fireDue; (repeat' split) <;> simp [ih]
@[simp] theorem fireDue_gcu (m fuel : Nat) : ∀ s, (fireDue m fuel s).gcu = s.gcu := by
  induction fuel with
  | zero => intro s; rfl
  | succ n ih => intro s; unfold fireDue; (repeat' split) <;> simp [ih]
@[simp] theorem fireDue_mr (m fuel : Nat) : ∀ s, (fireDue m fuel s).mr = s.mr := by
  induction fuel with
  | zero => intro s; rfl
  | succ n ih => intro s; unfold fireDue; (repeat' split) <;> simp [ih]
@[simp] theorem fireDue_dl (m fuel : Nat) : ∀ s, (fireDue m fuel s).dl = s.dl := by
  induction fuel with
  | zero => intro s; rfl
  | succ n ih => intro s; unfold fireDue; (repeat' split) <;> simp [ih]
@[simp] theorem fireDue_rc (m fuel : Nat) : ∀ s, (fireDue m fuel s).rc = s.rc := by
  induction fuel with
  | zero => intro s; rfl
  | succ n ih => intro s; unfold fireDue; (repeat' split) <;> simp [ih]
@[simp] theorem fireDue_rlc (m fuel : Nat) : ∀ s, (fireDue m fuel s).rlc = s.rlc := by
  induction fuel with
  | zero => intro s; rfl
  | succ n ih => intro s; unfold fireDue; (repeat' split) <;> simp [ih]
@[simp] theorem fireDue_mc (m fuel : Nat) : ∀ s, (fireDue m fuel s).mc = s.mc := by
  induction fuel with
  | zero => intro s; rfl
  | succ n ih => intro s; unfold fireDue; (repeat' split) <;> simp [ih]
@[simp] theorem fireDue_pins (m fuel : Nat) : ∀ s, (fireDue m fuel s).pins = s.pins := by
  induction fuel with
  | zero => intro s; rfl
  | succ n ih => intro s; unfold fireDue; (repeat' split) <;> simp [ih]
@[simp] theorem fireDue_underway (m fuel : Nat) : ∀ s, (fireDue m fuel s).underway = s.underway := by
  induction fuel with
  | zero => intro s; rfl
  | succ n ih => intro s; unfold fireDue; (repeat' split) <;> simp [ih]
@[simp] theorem fireDue_out (m fuel : Nat) : ∀ s, (fireDue m fuel s).out = s.out := by
  induction fuel with
  | zero => intro s; rfl
  | succ n ih => intro s; unfold fireDue; (repeat' split) <;> simp [ih]
@[simp] theorem fireDue_pending (m fuel : Nat) : ∀ s, (fireDue m fuel s).pending = s.pending := by
  induction fuel with
  | zero => intro s; rfl
  | succ n ih => intro s; unfold fireDue; (repeat' split) <;> simp [ih]
@[simp] theorem fireDue_hu_profileA (m fuel : Nat) : ∀ s, (fireDue m fuel s).hu.profileA = s.hu.profileA := by
  induction fuel with
  | zero => intro s; rfl
  | succ n ih => intro s; unfold fireDue; (repeat' split) <;> simp [ih]
@[simp] theorem fireDue_hu_profileB (m fuel : Nat) : ∀ s, (fireDue m fuel s).hu.profileB = s.hu.profileB := by
  induction fuel with
  | zero => intro s; rfl
  | succ n ih => intro s; unfold fireDue; (repeat' split) <;> simp [ih]
@[simp] theorem fireDue_op_reply (m fuel : Nat) : ∀ s, (fireDue m fuel s).op.reply = s.op.reply := by
  induction fuel with
  | zero => intro s; rfl
  | succ n ih => intro s; unfold fireDue; (repeat' split) <;> simp [ih]
@[simp] theorem fireDue_op_enables (m fuel : Nat) : ∀ s, (fireDue m fuel s).op.enables = s.op.enables := by
  induction fuel with
  | zero => intro s; rfl
  | succ n ih => intro s; unfold fireDue; (repeat' split) <;> simp [ih]
@[simp] theorem fireDue_minute (m fuel : Nat) : ∀ s, (fireDue m fuel s).minute = s.minute := by
  induction fuel with
  | zero => intro s; rfl
  | succ n ih => intro s; unfold fireDue; (repeat' split) <;> simp [ih]
@[simp] theorem fireDue_today (m fuel : Nat) : ∀ s, (fireDue m fuel s).today = s.today := by
  induction fuel with
  | zero => intro s; rfl
  | succ n ih => intro s; unfold fireDue; (repeat' split) <;> simp [ih]

/-! `firingPass` -/

@[simp] theorem firingPass_tc (m : Nat) : (firingPass m s).tc = s.tc := by
  simp [firingPass]
@[simp] theorem firingPass_folders (m : Nat) : (firingPass m s).folders = s.folders := by
  simp [firingPass]
@[simp] theorem firingPass_gcu (m : Nat) : (firingPass m s).gcu = s.gcu := by
  simp [firingPass]
@[simp] theorem firingPass_mr (m : Nat) : (firingPass m s).mr = s.mr := by
  simp [firingPass]
@[simp] theorem firingPass_dl (m : Nat) : (firingPass m s).dl = s.dl := by
  simp [firingPass]
@[simp] theorem firingPass_rc (m : Nat) : (firingPass m s).rc = s.rc := by
  simp [firingPass]
@[simp] theorem firingPass_rlc (m : Nat) : (firingPass m s).rlc = s.rlc := by
  simp [firingPass]
@[simp] theorem firingPass_mc (m : Nat) : (firingPass m s).mc = s.mc := by
  simp [firingPass]
@[simp] theorem firingPass_pins (m : Nat) : (firingPass m s).pins = s.pins := by
  simp [firingPass]
@[simp] theorem firingPass_underway (m : Nat) : (firingPass m s).underway = s.underway := by
  simp [firingPass]
@[simp] theorem firingPass_out (m : Nat) : (firingPass m s).out = s.out := by
  simp [firingPass]
@[simp] theorem firingPass_pending (m : Nat) : (firingPass m s).pending = s.pending := by
  simp [firingPass]
@[simp] theorem firingPass_hu_profileA (m : Nat) : (firingPass m s).hu.profileA = s.hu.profileA := by
  simp [firingPass]
@[simp] theorem firingPass_hu_profileB (m : Nat) : (firingPass m s).hu.profileB = s.hu.profileB := by
  simp [firingPass]
@[simp] theorem firingPass_op_reply (m : Nat) : (firingPass m s).op.reply = s.op.reply := by
  simp [firingPass]
@[simp] theorem firingPass_op_enables (m : Nat) : (firingPass m s).op.enables = s.op.enables := by
  simp [firingPass]
@[simp] theorem firingPass_minute (m : Nat) : (firingPass m s).minute = s.minute := by
  simp [firingPass]
@[simp] theorem firingPass_today (m : Nat) : (firingPass m s).today = s.today := by
  simp [firingPass]

/-! `transferProfile` -/

@[simp] theorem transferProfile_tc (p : ProfileLetter) : (transferProfile p s).tc = s.tc := by
  unfold transferProfile; dsimp only; split <;> simp
@[simp] theorem transferProfile_accounts (p : ProfileLetter) : (transferProfile p s).accounts = s.accounts := by
  unfold transferProfile; dsimp only; split <;> simp
@[simp] theorem transferProfile_folders (p : ProfileLetter) : (transferProfile p s).folders = s.folders := by
  unfold transferProfile; dsimp only; split <;> simp
@[simp] theorem transferProfile_gcu (p : ProfileLetter) : (transferProfile p s).gcu = s.gcu := by
  unfold transferProfile; dsimp only; split <;> simp
@[simp] theorem transferProfile_mr (p : ProfileLetter) : (transferProfile p s).mr = s.mr := by
  unfold transferProfile; dsimp only; split <;> simp
@[simp] theorem transferProfile_dl (p : ProfileLetter) : (transferProfile p s).dl = s.dl := by
  unfold transferProfile; dsimp only; split <;> simp
@[simp] theorem transferProfile_rc (p : ProfileLetter) : (transferProfile p s).rc = s.rc := by
  unfold transferProfile; dsimp only; split <;> simp
@[simp] theorem transferProfile_rlc (p : ProfileLetter) : (transferProfile p s).rlc = s.rlc := by
  unfold transferProfile; dsimp only; split <;> simp
@[simp] theorem transferProfile_op (p : ProfileLetter) : (transferProfile p s).op = s.op := by
  unfold transferProfile; dsimp only; split <;> simp
@[simp] theorem transferProfile_mc (p : ProfileLetter) : (transferProfile p s).mc = s.mc := by
  unfold transferProfile; dsimp only; split <;> simp
@[simp] theorem transferProfile_pins (p : ProfileLetter) : (transferProfile p s).pins = s.pins := by
  unfold transferProfile; dsimp only; split <;> simp
@[simp] theorem transferProfile_underway (p : ProfileLetter) : (transferProfile p s).underway = s.underway := by
  unfold transferProfile; dsimp only; split <;> simp
@[simp] theorem transferProfile_out (p : ProfileLetter) : (transferProfile p s).out = s.out := by
  unfold transferProfile; dsimp only; split <;> simp
@[simp] theorem transferProfile_pending (p : ProfileLetter) : (transferProfile p s).pending = s.pending := by
  unfold transferProfile; dsimp only; split <;> simp
@[simp] theorem transferProfile_hu_alarms (p : ProfileLetter) : (transferProfile p s).hu.alarms = s.hu.alarms := by
  unfold transferProfile; dsimp only; split <;> simp
@[simp] theorem transferProfile_minute (p : ProfileLetter) : (transferProfile p s).minute = s.minute := by
  unfold transferProfile; dsimp only; split <;> simp
@[simp] theorem transferProfile_today (p : ProfileLetter) : (transferProfile p s).today = s.today := by
  unfold transferProfile; dsimp only; split <;> simp

/-! `dayWork` -/

@[simp] theorem dayWork_folders : (dayWork s).folders = s.folders := by
  simp [dayWork, overAccounts_keeps (fun s : State => s.folders) expiryTest (fun i s => by simp)]
@[simp] theorem dayWork_gcu : (dayWork s).gcu = s.gcu := by
  simp [dayWork, overAccounts_keeps (fun s : State => s.gcu) expiryTest (fun i s => by simp)]
@[simp] theorem dayWork_mr : (dayWork s).mr = s.mr := by
  simp [dayWork, overAccounts_keeps (fun s : State => s.mr) expiryTest (fun i s => by simp)]
@[simp] theorem dayWork_dl : (dayWork s).dl = s.dl := by
  simp [dayWork, overAccounts_keeps (fun s : State => s.dl) expiryTest (fun i s => by simp)]
@[simp] theorem dayWork_rc : (dayWork s).rc = s.rc := by
  simp [dayWork, overAccounts_keeps (fun s : State => s.rc) expiryTest (fun i s => by simp)]
@[simp] theorem dayWork_rlc : (dayWork s).rlc = s.rlc := by
  simp [dayWork, overAccounts_keeps (fun s : State => s.rlc) expiryTest (fun i s => by simp)]
@[simp] theorem dayWork_mc : (dayWork s).mc = s.mc := by
  simp [dayWork, overAccounts_keeps (fun s : State => s.mc) expiryTest (fun i s => by simp)]
@[simp] theorem dayWork_pins : (dayWork s).pins = s.pins := by
  simp [dayWork, overAccounts_keeps (fun s : State => s.pins) expiryTest (fun i s => by simp)]
@[simp] theorem dayWork_underway : (dayWork s).underway = s.underway := by
  simp [dayWork, overAccounts_keeps (fun s : State => s.underway) expiryTest (fun i s => by simp)]
@[simp] theorem dayWork_out : (dayWork s).out = s.out := by
  simp [dayWork, overAccounts_keeps (fun s : State => s.out) expiryTest (fun i s => by simp)]
@[simp] theorem dayWork_pending : (dayWork s).pending = s.pending := by
  simp [dayWork, overAccounts_keeps (fun s : State => s.pending) expiryTest (fun i s => by simp)]
@[simp] theorem dayWork_op_reply : (dayWork s).op.reply = s.op.reply := by
  simp [dayWork, overAccounts_keeps (fun s : State => s.op.reply) expiryTest (fun i s => by simp)]
@[simp] theorem dayWork_op_enables : (dayWork s).op.enables = s.op.enables := by
  simp [dayWork, overAccounts_keeps (fun s : State => s.op.enables) expiryTest (fun i s => by simp)]
@[simp] theorem dayWork_tc_clock : (dayWork s).tc.clock = s.tc.clock := by
  simp [dayWork, overAccounts_keeps (fun s : State => s.tc.clock) expiryTest (fun i s => by simp)]
@[simp] theorem dayWork_tc_highWater : (dayWork s).tc.highWater = s.tc.highWater := by
  simp [dayWork, overAccounts_keeps (fun s : State => s.tc.highWater) expiryTest (fun i s => by simp)]
@[simp] theorem dayWork_tc_clockSet : (dayWork s).tc.clockSet = s.tc.clockSet := by
  simp [dayWork, overAccounts_keeps (fun s : State => s.tc.clockSet) expiryTest (fun i s => by simp)]
@[simp] theorem dayWork_tc_dayOffset : (dayWork s).tc.dayOffset = s.tc.dayOffset := by
  simp [dayWork, overAccounts_keeps (fun s : State => s.tc.dayOffset) expiryTest (fun i s => by simp)]
@[simp] theorem dayWork_tc_minuteDue : (dayWork s).tc.minuteDue = s.tc.minuteDue := by
  simp [dayWork, overAccounts_keeps (fun s : State => s.tc.minuteDue) expiryTest (fun i s => by simp)]
@[simp] theorem dayWork_minute : (dayWork s).minute = s.minute := by
  simp [dayWork, overAccounts_keeps (fun s : State => s.minute) expiryTest (fun i s => by simp)]
@[simp] theorem dayWork_today : (dayWork s).today = s.today := by
  simp [dayWork, overAccounts_keeps (fun s : State => s.today) expiryTest (fun i s => by simp)]

/-! `dayCheck` -/

@[simp] theorem dayCheck_folders : (dayCheck s).folders = s.folders := by
  unfold dayCheck; split <;> simp
@[simp] theorem dayCheck_gcu : (dayCheck s).gcu = s.gcu := by
  unfold dayCheck; split <;> simp
@[simp] theorem dayCheck_mr : (dayCheck s).mr = s.mr := by
  unfold dayCheck; split <;> simp
@[simp] theorem dayCheck_dl : (dayCheck s).dl = s.dl := by
  unfold dayCheck; split <;> simp
@[simp] theorem dayCheck_rc : (dayCheck s).rc = s.rc := by
  unfold dayCheck; split <;> simp
@[simp] theorem dayCheck_rlc : (dayCheck s).rlc = s.rlc := by
  unfold dayCheck; split <;> simp
@[simp] theorem dayCheck_mc : (dayCheck s).mc = s.mc := by
  unfold dayCheck; split <;> simp
@[simp] theorem dayCheck_pins : (dayCheck s).pins = s.pins := by
  unfold dayCheck; split <;> simp
@[simp] theorem dayCheck_underway : (dayCheck s).underway = s.underway := by
  unfold dayCheck; split <;> simp
@[simp] theorem dayCheck_out : (dayCheck s).out = s.out := by
  unfold dayCheck; split <;> simp
@[simp] theorem dayCheck_pending : (dayCheck s).pending = s.pending := by
  unfold dayCheck; split <;> simp
@[simp] theorem dayCheck_op_reply : (dayCheck s).op.reply = s.op.reply := by
  unfold dayCheck; split <;> simp
@[simp] theorem dayCheck_op_enables : (dayCheck s).op.enables = s.op.enables := by
  unfold dayCheck; split <;> simp
@[simp] theorem dayCheck_tc_clock : (dayCheck s).tc.clock = s.tc.clock := by
  unfold dayCheck; split <;> simp
@[simp] theorem dayCheck_tc_highWater : (dayCheck s).tc.highWater = s.tc.highWater := by
  unfold dayCheck; split <;> simp
@[simp] theorem dayCheck_tc_clockSet : (dayCheck s).tc.clockSet = s.tc.clockSet := by
  unfold dayCheck; split <;> simp
@[simp] theorem dayCheck_tc_dayOffset : (dayCheck s).tc.dayOffset = s.tc.dayOffset := by
  unfold dayCheck; split <;> simp
@[simp] theorem dayCheck_tc_minuteDue : (dayCheck s).tc.minuteDue = s.tc.minuteDue := by
  unfold dayCheck; split <;> simp
@[simp] theorem dayCheck_minute : (dayCheck s).minute = s.minute := by
  unfold dayCheck; split <;> simp
@[simp] theorem dayCheck_today : (dayCheck s).today = s.today := by
  unfold dayCheck; split <;> simp

/-! `takeMinuteBoundary` -/

@[simp] theorem takeMinuteBoundary_folders : (takeMinuteBoundary s).folders = s.folders := by
  simp [takeMinuteBoundary]
@[simp] theorem takeMinuteBoundary_gcu : (takeMinuteBoundary s).gcu = s.gcu := by
  simp [takeMinuteBoundary]
@[simp] theorem takeMinuteBoundary_mr : (takeMinuteBoundary s).mr = s.mr := by
  simp [takeMinuteBoundary]
@[simp] theorem takeMinuteBoundary_dl : (takeMinuteBoundary s).dl = s.dl := by
  simp [takeMinuteBoundary]
@[simp] theorem takeMinuteBoundary_rc : (takeMinuteBoundary s).rc = s.rc := by
  simp [takeMinuteBoundary]
@[simp] theorem takeMinuteBoundary_rlc : (takeMinuteBoundary s).rlc = s.rlc := by
  simp [takeMinuteBoundary]
@[simp] theorem takeMinuteBoundary_mc : (takeMinuteBoundary s).mc = s.mc := by
  simp [takeMinuteBoundary]
@[simp] theorem takeMinuteBoundary_pins : (takeMinuteBoundary s).pins = s.pins := by
  simp [takeMinuteBoundary]
@[simp] theorem takeMinuteBoundary_underway : (takeMinuteBoundary s).underway = s.underway := by
  simp [takeMinuteBoundary]
@[simp] theorem takeMinuteBoundary_out : (takeMinuteBoundary s).out = s.out := by
  simp [takeMinuteBoundary]
@[simp] theorem takeMinuteBoundary_pending : (takeMinuteBoundary s).pending = s.pending := by
  simp [takeMinuteBoundary]
@[simp] theorem takeMinuteBoundary_op_reply : (takeMinuteBoundary s).op.reply = s.op.reply := by
  simp [takeMinuteBoundary]
@[simp] theorem takeMinuteBoundary_op_enables : (takeMinuteBoundary s).op.enables = s.op.enables := by
  simp [takeMinuteBoundary]
@[simp] theorem takeMinuteBoundary_tc_clock : (takeMinuteBoundary s).tc.clock = s.tc.clock := by
  simp [takeMinuteBoundary]
@[simp] theorem takeMinuteBoundary_tc_highWater : (takeMinuteBoundary s).tc.highWater = s.tc.highWater := by
  simp [takeMinuteBoundary]
@[simp] theorem takeMinuteBoundary_tc_clockSet : (takeMinuteBoundary s).tc.clockSet = s.tc.clockSet := by
  simp [takeMinuteBoundary]
@[simp] theorem takeMinuteBoundary_tc_dayOffset : (takeMinuteBoundary s).tc.dayOffset = s.tc.dayOffset := by
  simp [takeMinuteBoundary]
@[simp] theorem takeMinuteBoundary_minute : (takeMinuteBoundary s).minute = s.minute := by
  simp [takeMinuteBoundary]
@[simp] theorem takeMinuteBoundary_today : (takeMinuteBoundary s).today = s.today := by
  simp [takeMinuteBoundary]

/-! `timeJump` -/

@[simp] theorem timeJump_folders (m : Nat) : (timeJump m s).folders = s.folders := by
  unfold timeJump; dsimp only; (repeat' split) <;> simp
@[simp] theorem timeJump_gcu (m : Nat) : (timeJump m s).gcu = s.gcu := by
  unfold timeJump; dsimp only; (repeat' split) <;> simp
@[simp] theorem timeJump_mr (m : Nat) : (timeJump m s).mr = s.mr := by
  unfold timeJump; dsimp only; (repeat' split) <;> simp
@[simp] theorem timeJump_dl (m : Nat) : (timeJump m s).dl = s.dl := by
  unfold timeJump; dsimp only; (repeat' split) <;> simp
@[simp] theorem timeJump_rc (m : Nat) : (timeJump m s).rc = s.rc := by
  unfold timeJump; dsimp only; (repeat' split) <;> simp
@[simp] theorem timeJump_rlc (m : Nat) : (timeJump m s).rlc = s.rlc := by
  unfold timeJump; dsimp only; (repeat' split) <;> simp
@[simp] theorem timeJump_mc (m : Nat) : (timeJump m s).mc = s.mc := by
  unfold timeJump; dsimp only; (repeat' split) <;> simp
@[simp] theorem timeJump_pins (m : Nat) : (timeJump m s).pins = s.pins := by
  unfold timeJump; dsimp only; (repeat' split) <;> simp
@[simp] theorem timeJump_underway (m : Nat) : (timeJump m s).underway = s.underway := by
  unfold timeJump; dsimp only; (repeat' split) <;> simp
@[simp] theorem timeJump_out (m : Nat) : (timeJump m s).out = s.out := by
  unfold timeJump; dsimp only; (repeat' split) <;> simp
@[simp] theorem timeJump_pending (m : Nat) : (timeJump m s).pending = s.pending := by
  unfold timeJump; dsimp only; (repeat' split) <;> simp
@[simp] theorem timeJump_op_reply (m : Nat) : (timeJump m s).op.reply = s.op.reply := by
  unfold timeJump; dsimp only; (repeat' split) <;> simp
@[simp] theorem timeJump_op_enables (m : Nat) : (timeJump m s).op.enables = s.op.enables := by
  unfold timeJump; dsimp only; (repeat' split) <;> simp
@[simp] theorem timeJump_tc_clock (m : Nat) : (timeJump m s).tc.clock = s.tc.clock := by
  unfold timeJump; dsimp only; (repeat' split) <;> simp
@[simp] theorem timeJump_tc_highWater (m : Nat) : (timeJump m s).tc.highWater = s.tc.highWater := by
  unfold timeJump; dsimp only; (repeat' split) <;> simp
@[simp] theorem timeJump_tc_clockSet (m : Nat) : (timeJump m s).tc.clockSet = s.tc.clockSet := by
  unfold timeJump; dsimp only; (repeat' split) <;> simp
@[simp] theorem timeJump_tc_dayOffset (m : Nat) : (timeJump m s).tc.dayOffset = s.tc.dayOffset := by
  unfold timeJump; dsimp only; (repeat' split) <;> simp
@[simp] theorem timeJump_minute (m : Nat) : (timeJump m s).minute = s.minute := by
  unfold timeJump; dsimp only; (repeat' split) <;> simp
@[simp] theorem timeJump_today (m : Nat) : (timeJump m s).today = s.today := by
  unfold timeJump; dsimp only; (repeat' split) <;> simp

/-! `startAlarms` -/

@[simp] theorem startAlarms_folders : (startAlarms s).folders = s.folders := by
  unfold startAlarms; split <;> simp
@[simp] theorem startAlarms_gcu : (startAlarms s).gcu = s.gcu := by
  unfold startAlarms; split <;> simp
@[simp] theorem startAlarms_mr : (startAlarms s).mr = s.mr := by
  unfold startAlarms; split <;> simp
@[simp] theorem startAlarms_dl : (startAlarms s).dl = s.dl := by
  unfold startAlarms; split <;> simp
@[simp] theorem startAlarms_rc : (startAlarms s).rc = s.rc := by
  unfold startAlarms; split <;> simp
@[simp] theorem startAlarms_rlc : (startAlarms s).rlc = s.rlc := by
  unfold startAlarms; split <;> simp
@[simp] theorem startAlarms_mc : (startAlarms s).mc = s.mc := by
  unfold startAlarms; split <;> simp
@[simp] theorem startAlarms_pins : (startAlarms s).pins = s.pins := by
  unfold startAlarms; split <;> simp
@[simp] theorem startAlarms_underway : (startAlarms s).underway = s.underway := by
  unfold startAlarms; split <;> simp
@[simp] theorem startAlarms_out : (startAlarms s).out = s.out := by
  unfold startAlarms; split <;> simp
@[simp] theorem startAlarms_pending : (startAlarms s).pending = s.pending := by
  unfold startAlarms; split <;> simp
@[simp] theorem startAlarms_op_reply : (startAlarms s).op.reply = s.op.reply := by
  unfold startAlarms; split <;> simp
@[simp] theorem startAlarms_op_enables : (startAlarms s).op.enables = s.op.enables := by
  unfold startAlarms; split <;> simp
@[simp] theorem startAlarms_tc_clock : (startAlarms s).tc.clock = s.tc.clock := by
  unfold startAlarms; split <;> simp
@[simp] theorem startAlarms_tc_highWater : (startAlarms s).tc.highWater = s.tc.highWater := by
  unfold startAlarms; split <;> simp
@[simp] theorem startAlarms_tc_clockSet : (startAlarms s).tc.clockSet = s.tc.clockSet := by
  unfold startAlarms; split <;> simp
@[simp] theorem startAlarms_tc_dayOffset : (startAlarms s).tc.dayOffset = s.tc.dayOffset := by
  unfold startAlarms; split <;> simp
@[simp] theorem startAlarms_tc_minuteDue : (startAlarms s).tc.minuteDue = s.tc.minuteDue := by
  unfold startAlarms; split <;> simp
@[simp] theorem startAlarms_minute : (startAlarms s).minute = s.minute := by
  unfold startAlarms; split <;> simp
@[simp] theorem startAlarms_today : (startAlarms s).today = s.today := by
  unfold startAlarms; split <;> simp

/-! `noteLate` -/

@[simp] theorem noteLate_tc (i : Fin 64) (n : Nat) : (noteLate i n s).tc = s.tc := by
  unfold noteLate; split <;> simp
@[simp] theorem noteLate_hu (i : Fin 64) (n : Nat) : (noteLate i n s).hu = s.hu := by
  unfold noteLate; split <;> simp
@[simp] theorem noteLate_folders (i : Fin 64) (n : Nat) : (noteLate i n s).folders = s.folders := by
  unfold noteLate; split <;> simp
@[simp] theorem noteLate_gcu (i : Fin 64) (n : Nat) : (noteLate i n s).gcu = s.gcu := by
  unfold noteLate; split <;> simp
@[simp] theorem noteLate_mr (i : Fin 64) (n : Nat) : (noteLate i n s).mr = s.mr := by
  unfold noteLate; split <;> simp
@[simp] theorem noteLate_dl (i : Fin 64) (n : Nat) : (noteLate i n s).dl = s.dl := by
  unfold noteLate; split <;> simp
@[simp] theorem noteLate_rc (i : Fin 64) (n : Nat) : (noteLate i n s).rc = s.rc := by
  unfold noteLate; split <;> simp
@[simp] theorem noteLate_rlc (i : Fin 64) (n : Nat) : (noteLate i n s).rlc = s.rlc := by
  unfold noteLate; split <;> simp
@[simp] theorem noteLate_mc (i : Fin 64) (n : Nat) : (noteLate i n s).mc = s.mc := by
  unfold noteLate; split <;> simp
@[simp] theorem noteLate_pins (i : Fin 64) (n : Nat) : (noteLate i n s).pins = s.pins := by
  unfold noteLate; split <;> simp
@[simp] theorem noteLate_underway (i : Fin 64) (n : Nat) : (noteLate i n s).underway = s.underway := by
  unfold noteLate; split <;> simp
@[simp] theorem noteLate_out (i : Fin 64) (n : Nat) : (noteLate i n s).out = s.out := by
  unfold noteLate; split <;> simp
@[simp] theorem noteLate_pending (i : Fin 64) (n : Nat) : (noteLate i n s).pending = s.pending := by
  unfold noteLate; split <;> simp
@[simp] theorem noteLate_op_reply (i : Fin 64) (n : Nat) : (noteLate i n s).op.reply = s.op.reply := by
  unfold noteLate; split <;> simp
@[simp] theorem noteLate_op_enables (i : Fin 64) (n : Nat) : (noteLate i n s).op.enables = s.op.enables := by
  unfold noteLate; split <;> simp
@[simp] theorem noteLate_minute (i : Fin 64) (n : Nat) : (noteLate i n s).minute = s.minute := by
  unfold noteLate; split <;> simp
@[simp] theorem noteLate_today (i : Fin 64) (n : Nat) : (noteLate i n s).today = s.today := by
  unfold noteLate; split <;> simp

/-! `applyStatus` -/

@[simp] theorem applyStatus_folders (i : Fin 64) (n : Status) (t : Nat) : (applyStatus i n t s).folders = s.folders := by
  simp [applyStatus]
@[simp] theorem applyStatus_gcu (i : Fin 64) (n : Status) (t : Nat) : (applyStatus i n t s).gcu = s.gcu := by
  simp [applyStatus]
@[simp] theorem applyStatus_mr (i : Fin 64) (n : Status) (t : Nat) : (applyStatus i n t s).mr = s.mr := by
  simp [applyStatus]
@[simp] theorem applyStatus_dl (i : Fin 64) (n : Status) (t : Nat) : (applyStatus i n t s).dl = s.dl := by
  simp [applyStatus]
@[simp] theorem applyStatus_rc (i : Fin 64) (n : Status) (t : Nat) : (applyStatus i n t s).rc = s.rc := by
  simp [applyStatus]
@[simp] theorem applyStatus_rlc (i : Fin 64) (n : Status) (t : Nat) : (applyStatus i n t s).rlc = s.rlc := by
  simp [applyStatus]
@[simp] theorem applyStatus_mc (i : Fin 64) (n : Status) (t : Nat) : (applyStatus i n t s).mc = s.mc := by
  simp [applyStatus]
@[simp] theorem applyStatus_pins (i : Fin 64) (n : Status) (t : Nat) : (applyStatus i n t s).pins = s.pins := by
  simp [applyStatus]
@[simp] theorem applyStatus_underway (i : Fin 64) (n : Status) (t : Nat) : (applyStatus i n t s).underway = s.underway := by
  simp [applyStatus]
@[simp] theorem applyStatus_out (i : Fin 64) (n : Status) (t : Nat) : (applyStatus i n t s).out = s.out := by
  simp [applyStatus]
@[simp] theorem applyStatus_pending (i : Fin 64) (n : Status) (t : Nat) : (applyStatus i n t s).pending = s.pending := by
  simp [applyStatus]
@[simp] theorem applyStatus_hu_profileA (i : Fin 64) (n : Status) (t : Nat) : (applyStatus i n t s).hu.profileA = s.hu.profileA := by
  simp [applyStatus]
@[simp] theorem applyStatus_hu_profileB (i : Fin 64) (n : Status) (t : Nat) : (applyStatus i n t s).hu.profileB = s.hu.profileB := by
  simp [applyStatus]
@[simp] theorem applyStatus_op_reply (i : Fin 64) (n : Status) (t : Nat) : (applyStatus i n t s).op.reply = s.op.reply := by
  simp [applyStatus]
@[simp] theorem applyStatus_op_enables (i : Fin 64) (n : Status) (t : Nat) : (applyStatus i n t s).op.enables = s.op.enables := by
  simp [applyStatus]
@[simp] theorem applyStatus_tc_clock (i : Fin 64) (n : Status) (t : Nat) : (applyStatus i n t s).tc.clock = s.tc.clock := by
  simp [applyStatus]
@[simp] theorem applyStatus_tc_clockSet (i : Fin 64) (n : Status) (t : Nat) : (applyStatus i n t s).tc.clockSet = s.tc.clockSet := by
  simp [applyStatus]
@[simp] theorem applyStatus_tc_dayOffset (i : Fin 64) (n : Status) (t : Nat) : (applyStatus i n t s).tc.dayOffset = s.tc.dayOffset := by
  simp [applyStatus]
@[simp] theorem applyStatus_tc_treatedDay (i : Fin 64) (n : Status) (t : Nat) : (applyStatus i n t s).tc.treatedDay = s.tc.treatedDay := by
  simp [applyStatus]
@[simp] theorem applyStatus_tc_minuteDue (i : Fin 64) (n : Status) (t : Nat) : (applyStatus i n t s).tc.minuteDue = s.tc.minuteDue := by
  simp [applyStatus]
@[simp] theorem applyStatus_minute (i : Fin 64) (n : Status) (t : Nat) : (applyStatus i n t s).minute = s.minute := by
  simp [applyStatus]
@[simp] theorem applyStatus_today (i : Fin 64) (n : Status) (t : Nat) : (applyStatus i n t s).today = s.today := by
  simp [applyStatus]

/-! `changeStatus` -/

@[simp] theorem changeStatus_folders (i : Fin 64) (n : Status) (t : Nat) : (changeStatus i n t s).state.folders = s.folders := by
  unfold changeStatus; dsimp only; (repeat' split) <;> simp
@[simp] theorem changeStatus_gcu (i : Fin 64) (n : Status) (t : Nat) : (changeStatus i n t s).state.gcu = s.gcu := by
  unfold changeStatus; dsimp only; (repeat' split) <;> simp
@[simp] theorem changeStatus_mr (i : Fin 64) (n : Status) (t : Nat) : (changeStatus i n t s).state.mr = s.mr := by
  unfold changeStatus; dsimp only; (repeat' split) <;> simp
@[simp] theorem changeStatus_dl (i : Fin 64) (n : Status) (t : Nat) : (changeStatus i n t s).state.dl = s.dl := by
  unfold changeStatus; dsimp only; (repeat' split) <;> simp
@[simp] theorem changeStatus_rc (i : Fin 64) (n : Status) (t : Nat) : (changeStatus i n t s).state.rc = s.rc := by
  unfold changeStatus; dsimp only; (repeat' split) <;> simp
@[simp] theorem changeStatus_rlc (i : Fin 64) (n : Status) (t : Nat) : (changeStatus i n t s).state.rlc = s.rlc := by
  unfold changeStatus; dsimp only; (repeat' split) <;> simp
@[simp] theorem changeStatus_mc (i : Fin 64) (n : Status) (t : Nat) : (changeStatus i n t s).state.mc = s.mc := by
  unfold changeStatus; dsimp only; (repeat' split) <;> simp
@[simp] theorem changeStatus_pins (i : Fin 64) (n : Status) (t : Nat) : (changeStatus i n t s).state.pins = s.pins := by
  unfold changeStatus; dsimp only; (repeat' split) <;> simp
@[simp] theorem changeStatus_underway (i : Fin 64) (n : Status) (t : Nat) : (changeStatus i n t s).state.underway = s.underway := by
  unfold changeStatus; dsimp only; (repeat' split) <;> simp
@[simp] theorem changeStatus_out (i : Fin 64) (n : Status) (t : Nat) : (changeStatus i n t s).state.out = s.out := by
  unfold changeStatus; dsimp only; (repeat' split) <;> simp
@[simp] theorem changeStatus_pending (i : Fin 64) (n : Status) (t : Nat) : (changeStatus i n t s).state.pending = s.pending := by
  unfold changeStatus; dsimp only; (repeat' split) <;> simp
@[simp] theorem changeStatus_hu_profileA (i : Fin 64) (n : Status) (t : Nat) : (changeStatus i n t s).state.hu.profileA = s.hu.profileA := by
  unfold changeStatus; dsimp only; (repeat' split) <;> simp
@[simp] theorem changeStatus_hu_profileB (i : Fin 64) (n : Status) (t : Nat) : (changeStatus i n t s).state.hu.profileB = s.hu.profileB := by
  unfold changeStatus; dsimp only; (repeat' split) <;> simp
@[simp] theorem changeStatus_op_reply (i : Fin 64) (n : Status) (t : Nat) : (changeStatus i n t s).state.op.reply = s.op.reply := by
  unfold changeStatus; dsimp only; (repeat' split) <;> simp
@[simp] theorem changeStatus_op_enables (i : Fin 64) (n : Status) (t : Nat) : (changeStatus i n t s).state.op.enables = s.op.enables := by
  unfold changeStatus; dsimp only; (repeat' split) <;> simp
@[simp] theorem changeStatus_tc_clock (i : Fin 64) (n : Status) (t : Nat) : (changeStatus i n t s).state.tc.clock = s.tc.clock := by
  unfold changeStatus; dsimp only; (repeat' split) <;> simp
@[simp] theorem changeStatus_tc_clockSet (i : Fin 64) (n : Status) (t : Nat) : (changeStatus i n t s).state.tc.clockSet = s.tc.clockSet := by
  unfold changeStatus; dsimp only; (repeat' split) <;> simp
@[simp] theorem changeStatus_tc_dayOffset (i : Fin 64) (n : Status) (t : Nat) : (changeStatus i n t s).state.tc.dayOffset = s.tc.dayOffset := by
  unfold changeStatus; dsimp only; (repeat' split) <;> simp
@[simp] theorem changeStatus_tc_treatedDay (i : Fin 64) (n : Status) (t : Nat) : (changeStatus i n t s).state.tc.treatedDay = s.tc.treatedDay := by
  unfold changeStatus; dsimp only; (repeat' split) <;> simp
@[simp] theorem changeStatus_tc_minuteDue (i : Fin 64) (n : Status) (t : Nat) : (changeStatus i n t s).state.tc.minuteDue = s.tc.minuteDue := by
  unfold changeStatus; dsimp only; (repeat' split) <;> simp
@[simp] theorem changeStatus_minute (i : Fin 64) (n : Status) (t : Nat) : (changeStatus i n t s).state.minute = s.minute := by
  unfold changeStatus; dsimp only; (repeat' split) <;> simp
@[simp] theorem changeStatus_today (i : Fin 64) (n : Status) (t : Nat) : (changeStatus i n t s).state.today = s.today := by
  unfold changeStatus; dsimp only; (repeat' split) <;> simp

/-! `evaluate` -/

@[simp] theorem evaluate_tc (f : Fin 16) (x : Folder) : (evaluate f x s).tc = s.tc := by
  simp [evaluate]
@[simp] theorem evaluate_accounts (f : Fin 16) (x : Folder) : (evaluate f x s).accounts = s.accounts := by
  simp [evaluate]
@[simp] theorem evaluate_hu (f : Fin 16) (x : Folder) : (evaluate f x s).hu = s.hu := by
  simp [evaluate]
@[simp] theorem evaluate_gcu (f : Fin 16) (x : Folder) : (evaluate f x s).gcu = s.gcu := by
  simp [evaluate]
@[simp] theorem evaluate_mr (f : Fin 16) (x : Folder) : (evaluate f x s).mr = s.mr := by
  simp [evaluate]
@[simp] theorem evaluate_dl (f : Fin 16) (x : Folder) : (evaluate f x s).dl = s.dl := by
  simp [evaluate]
@[simp] theorem evaluate_rc (f : Fin 16) (x : Folder) : (evaluate f x s).rc = s.rc := by
  simp [evaluate]
@[simp] theorem evaluate_rlc (f : Fin 16) (x : Folder) : (evaluate f x s).rlc = s.rlc := by
  simp [evaluate]
@[simp] theorem evaluate_mc (f : Fin 16) (x : Folder) : (evaluate f x s).mc = s.mc := by
  simp [evaluate]
@[simp] theorem evaluate_pins (f : Fin 16) (x : Folder) : (evaluate f x s).pins = s.pins := by
  simp [evaluate]
@[simp] theorem evaluate_underway (f : Fin 16) (x : Folder) : (evaluate f x s).underway = s.underway := by
  simp [evaluate]
@[simp] theorem evaluate_out (f : Fin 16) (x : Folder) : (evaluate f x s).out = s.out := by
  simp [evaluate]
@[simp] theorem evaluate_pending (f : Fin 16) (x : Folder) : (evaluate f x s).pending = s.pending := by
  simp [evaluate]
@[simp] theorem evaluate_op_reply (f : Fin 16) (x : Folder) : (evaluate f x s).op.reply = s.op.reply := by
  simp [evaluate]
@[simp] theorem evaluate_op_enables (f : Fin 16) (x : Folder) : (evaluate f x s).op.enables = s.op.enables := by
  simp [evaluate]
@[simp] theorem evaluate_minute (f : Fin 16) (x : Folder) : (evaluate f x s).minute = s.minute := by
  simp [evaluate]
@[simp] theorem evaluate_today (f : Fin 16) (x : Folder) : (evaluate f x s).today = s.today := by
  simp [evaluate]

/-! `leftLoading` -/

@[simp] theorem leftLoading_tc : (leftLoading s).tc = s.tc := by
  unfold leftLoading; (repeat' split) <;> simp
@[simp] theorem leftLoading_accounts : (leftLoading s).accounts = s.accounts := by
  unfold leftLoading; (repeat' split) <;> simp
@[simp] theorem leftLoading_hu : (leftLoading s).hu = s.hu := by
  unfold leftLoading; (repeat' split) <;> simp
@[simp] theorem leftLoading_folders : (leftLoading s).folders = s.folders := by
  unfold leftLoading; (repeat' split) <;> simp
@[simp] theorem leftLoading_gcu : (leftLoading s).gcu = s.gcu := by
  unfold leftLoading; (repeat' split) <;> simp
@[simp] theorem leftLoading_mr : (leftLoading s).mr = s.mr := by
  unfold leftLoading; (repeat' split) <;> simp
@[simp] theorem leftLoading_dl : (leftLoading s).dl = s.dl := by
  unfold leftLoading; (repeat' split) <;> simp
@[simp] theorem leftLoading_rc : (leftLoading s).rc = s.rc := by
  unfold leftLoading; (repeat' split) <;> simp
@[simp] theorem leftLoading_rlc : (leftLoading s).rlc = s.rlc := by
  unfold leftLoading; (repeat' split) <;> simp
@[simp] theorem leftLoading_pins : (leftLoading s).pins = s.pins := by
  unfold leftLoading; (repeat' split) <;> simp
@[simp] theorem leftLoading_underway : (leftLoading s).underway = s.underway := by
  unfold leftLoading; (repeat' split) <;> simp
@[simp] theorem leftLoading_out : (leftLoading s).out = s.out := by
  unfold leftLoading; (repeat' split) <;> simp
@[simp] theorem leftLoading_pending : (leftLoading s).pending = s.pending := by
  unfold leftLoading; (repeat' split) <;> simp
@[simp] theorem leftLoading_op_reply : (leftLoading s).op.reply = s.op.reply := by
  unfold leftLoading; (repeat' split) <;> simp
@[simp] theorem leftLoading_op_enables : (leftLoading s).op.enables = s.op.enables := by
  unfold leftLoading; (repeat' split) <;> simp
@[simp] theorem leftLoading_minute : (leftLoading s).minute = s.minute := by
  unfold leftLoading; (repeat' split) <;> simp
@[simp] theorem leftLoading_today : (leftLoading s).today = s.today := by
  unfold leftLoading; (repeat' split) <;> simp

/-! `endOfLoading` -/

@[simp] theorem endOfLoading_tc (f : Fin 16) (x : Folder) : (endOfLoading f x s).tc = s.tc := by
  simp [endOfLoading]
@[simp] theorem endOfLoading_accounts (f : Fin 16) (x : Folder) : (endOfLoading f x s).accounts = s.accounts := by
  simp [endOfLoading]
@[simp] theorem endOfLoading_hu (f : Fin 16) (x : Folder) : (endOfLoading f x s).hu = s.hu := by
  simp [endOfLoading]
@[simp] theorem endOfLoading_gcu (f : Fin 16) (x : Folder) : (endOfLoading f x s).gcu = s.gcu := by
  simp [endOfLoading]
@[simp] theorem endOfLoading_mr (f : Fin 16) (x : Folder) : (endOfLoading f x s).mr = s.mr := by
  simp [endOfLoading]
@[simp] theorem endOfLoading_dl (f : Fin 16) (x : Folder) : (endOfLoading f x s).dl = s.dl := by
  simp [endOfLoading]
@[simp] theorem endOfLoading_rc (f : Fin 16) (x : Folder) : (endOfLoading f x s).rc = s.rc := by
  simp [endOfLoading]
@[simp] theorem endOfLoading_rlc (f : Fin 16) (x : Folder) : (endOfLoading f x s).rlc = s.rlc := by
  simp [endOfLoading]
@[simp] theorem endOfLoading_pins (f : Fin 16) (x : Folder) : (endOfLoading f x s).pins = s.pins := by
  simp [endOfLoading]
@[simp] theorem endOfLoading_underway (f : Fin 16) (x : Folder) : (endOfLoading f x s).underway = s.underway := by
  simp [endOfLoading]
@[simp] theorem endOfLoading_out (f : Fin 16) (x : Folder) : (endOfLoading f x s).out = s.out := by
  simp [endOfLoading]
@[simp] theorem endOfLoading_pending (f : Fin 16) (x : Folder) : (endOfLoading f x s).pending = s.pending := by
  simp [endOfLoading]
@[simp] theorem endOfLoading_op_reply (f : Fin 16) (x : Folder) : (endOfLoading f x s).op.reply = s.op.reply := by
  simp [endOfLoading]
@[simp] theorem endOfLoading_op_enables (f : Fin 16) (x : Folder) : (endOfLoading f x s).op.enables = s.op.enables := by
  simp [endOfLoading]
@[simp] theorem endOfLoading_minute (f : Fin 16) (x : Folder) : (endOfLoading f x s).minute = s.minute := by
  simp [endOfLoading]
@[simp] theorem endOfLoading_today (f : Fin 16) (x : Folder) : (endOfLoading f x s).today = s.today := by
  simp [endOfLoading]

/-! `dropLiveFolder` -/

@[simp] theorem dropLiveFolder_tc (i : Fin 64) : (dropLiveFolder i s).tc = s.tc := by
  simp [dropLiveFolder]
@[simp] theorem dropLiveFolder_hu (i : Fin 64) : (dropLiveFolder i s).hu = s.hu := by
  simp [dropLiveFolder]
@[simp] theorem dropLiveFolder_folders (i : Fin 64) : (dropLiveFolder i s).folders = s.folders := by
  simp [dropLiveFolder]
@[simp] theorem dropLiveFolder_gcu (i : Fin 64) : (dropLiveFolder i s).gcu = s.gcu := by
  simp [dropLiveFolder]
@[simp] theorem dropLiveFolder_mr (i : Fin 64) : (dropLiveFolder i s).mr = s.mr := by
  simp [dropLiveFolder]
@[simp] theorem dropLiveFolder_dl (i : Fin 64) : (dropLiveFolder i s).dl = s.dl := by
  simp [dropLiveFolder]
@[simp] theorem dropLiveFolder_rc (i : Fin 64) : (dropLiveFolder i s).rc = s.rc := by
  simp [dropLiveFolder]
@[simp] theorem dropLiveFolder_rlc (i : Fin 64) : (dropLiveFolder i s).rlc = s.rlc := by
  simp [dropLiveFolder]
@[simp] theorem dropLiveFolder_op (i : Fin 64) : (dropLiveFolder i s).op = s.op := by
  simp [dropLiveFolder]
@[simp] theorem dropLiveFolder_mc (i : Fin 64) : (dropLiveFolder i s).mc = s.mc := by
  simp [dropLiveFolder]
@[simp] theorem dropLiveFolder_pins (i : Fin 64) : (dropLiveFolder i s).pins = s.pins := by
  simp [dropLiveFolder]
@[simp] theorem dropLiveFolder_underway (i : Fin 64) : (dropLiveFolder i s).underway = s.underway := by
  simp [dropLiveFolder]
@[simp] theorem dropLiveFolder_out (i : Fin 64) : (dropLiveFolder i s).out = s.out := by
  simp [dropLiveFolder]
@[simp] theorem dropLiveFolder_pending (i : Fin 64) : (dropLiveFolder i s).pending = s.pending := by
  simp [dropLiveFolder]
@[simp] theorem dropLiveFolder_minute (i : Fin 64) : (dropLiveFolder i s).minute = s.minute := by
  simp [dropLiveFolder]
@[simp] theorem dropLiveFolder_today (i : Fin 64) : (dropLiveFolder i s).today = s.today := by
  simp [dropLiveFolder]

/-! `dropDrivers` -/

@[simp] theorem dropDrivers_tc (x : Folder) : (dropDrivers x s).tc = s.tc := by
  unfold dropDrivers; dsimp only; split <;> simp
@[simp] theorem dropDrivers_hu (x : Folder) : (dropDrivers x s).hu = s.hu := by
  unfold dropDrivers; dsimp only; split <;> simp
@[simp] theorem dropDrivers_folders (x : Folder) : (dropDrivers x s).folders = s.folders := by
  unfold dropDrivers; dsimp only; split <;> simp
@[simp] theorem dropDrivers_gcu (x : Folder) : (dropDrivers x s).gcu = s.gcu := by
  unfold dropDrivers; dsimp only; split <;> simp
@[simp] theorem dropDrivers_mr (x : Folder) : (dropDrivers x s).mr = s.mr := by
  unfold dropDrivers; dsimp only; split <;> simp
@[simp] theorem dropDrivers_dl (x : Folder) : (dropDrivers x s).dl = s.dl := by
  unfold dropDrivers; dsimp only; split <;> simp
@[simp] theorem dropDrivers_rc (x : Folder) : (dropDrivers x s).rc = s.rc := by
  unfold dropDrivers; dsimp only; split <;> simp
@[simp] theorem dropDrivers_rlc (x : Folder) : (dropDrivers x s).rlc = s.rlc := by
  unfold dropDrivers; dsimp only; split <;> simp
@[simp] theorem dropDrivers_op (x : Folder) : (dropDrivers x s).op = s.op := by
  unfold dropDrivers; dsimp only; split <;> simp
@[simp] theorem dropDrivers_mc (x : Folder) : (dropDrivers x s).mc = s.mc := by
  unfold dropDrivers; dsimp only; split <;> simp
@[simp] theorem dropDrivers_pins (x : Folder) : (dropDrivers x s).pins = s.pins := by
  unfold dropDrivers; dsimp only; split <;> simp
@[simp] theorem dropDrivers_underway (x : Folder) : (dropDrivers x s).underway = s.underway := by
  unfold dropDrivers; dsimp only; split <;> simp
@[simp] theorem dropDrivers_out (x : Folder) : (dropDrivers x s).out = s.out := by
  unfold dropDrivers; dsimp only; split <;> simp
@[simp] theorem dropDrivers_pending (x : Folder) : (dropDrivers x s).pending = s.pending := by
  unfold dropDrivers; dsimp only; split <;> simp
@[simp] theorem dropDrivers_minute (x : Folder) : (dropDrivers x s).minute = s.minute := by
  unfold dropDrivers; dsimp only; split <;> simp
@[simp] theorem dropDrivers_today (x : Folder) : (dropDrivers x s).today = s.today := by
  unfold dropDrivers; dsimp only; split <;> simp

/-! `freeFolder` -/

@[simp] theorem freeFolder_tc (f : Fin 16) : (freeFolder f s).tc = s.tc := by
  simp [freeFolder]
@[simp] theorem freeFolder_hu (f : Fin 16) : (freeFolder f s).hu = s.hu := by
  simp [freeFolder]
@[simp] theorem freeFolder_gcu (f : Fin 16) : (freeFolder f s).gcu = s.gcu := by
  simp [freeFolder]
@[simp] theorem freeFolder_mr (f : Fin 16) : (freeFolder f s).mr = s.mr := by
  simp [freeFolder]
@[simp] theorem freeFolder_dl (f : Fin 16) : (freeFolder f s).dl = s.dl := by
  simp [freeFolder]
@[simp] theorem freeFolder_rc (f : Fin 16) : (freeFolder f s).rc = s.rc := by
  simp [freeFolder]
@[simp] theorem freeFolder_rlc (f : Fin 16) : (freeFolder f s).rlc = s.rlc := by
  simp [freeFolder]
@[simp] theorem freeFolder_op (f : Fin 16) : (freeFolder f s).op = s.op := by
  simp [freeFolder]
@[simp] theorem freeFolder_mc (f : Fin 16) : (freeFolder f s).mc = s.mc := by
  simp [freeFolder]
@[simp] theorem freeFolder_pins (f : Fin 16) : (freeFolder f s).pins = s.pins := by
  simp [freeFolder]
@[simp] theorem freeFolder_underway (f : Fin 16) : (freeFolder f s).underway = s.underway := by
  simp [freeFolder]
@[simp] theorem freeFolder_out (f : Fin 16) : (freeFolder f s).out = s.out := by
  simp [freeFolder]
@[simp] theorem freeFolder_pending (f : Fin 16) : (freeFolder f s).pending = s.pending := by
  simp [freeFolder]
@[simp] theorem freeFolder_minute (f : Fin 16) : (freeFolder f s).minute = s.minute := by
  simp [freeFolder]
@[simp] theorem freeFolder_today (f : Fin 16) : (freeFolder f s).today = s.today := by
  simp [freeFolder]

/-! `loseBay` -/

@[simp] theorem loseBay_tc (n : Fin 8) : (loseBay n s).tc = s.tc := by
  unfold loseBay; (repeat' split) <;> simp
@[simp] theorem loseBay_accounts (n : Fin 8) : (loseBay n s).accounts = s.accounts := by
  unfold loseBay; (repeat' split) <;> simp
@[simp] theorem loseBay_hu (n : Fin 8) : (loseBay n s).hu = s.hu := by
  unfold loseBay; (repeat' split) <;> simp
@[simp] theorem loseBay_gcu (n : Fin 8) : (loseBay n s).gcu = s.gcu := by
  unfold loseBay; (repeat' split) <;> simp
@[simp] theorem loseBay_mr (n : Fin 8) : (loseBay n s).mr = s.mr := by
  unfold loseBay; (repeat' split) <;> simp
@[simp] theorem loseBay_dl (n : Fin 8) : (loseBay n s).dl = s.dl := by
  unfold loseBay; (repeat' split) <;> simp
@[simp] theorem loseBay_rc (n : Fin 8) : (loseBay n s).rc = s.rc := by
  unfold loseBay; (repeat' split) <;> simp
@[simp] theorem loseBay_rlc (n : Fin 8) : (loseBay n s).rlc = s.rlc := by
  unfold loseBay; (repeat' split) <;> simp
@[simp] theorem loseBay_mc (n : Fin 8) : (loseBay n s).mc = s.mc := by
  unfold loseBay; (repeat' split) <;> simp
@[simp] theorem loseBay_pins (n : Fin 8) : (loseBay n s).pins = s.pins := by
  unfold loseBay; (repeat' split) <;> simp
@[simp] theorem loseBay_underway (n : Fin 8) : (loseBay n s).underway = s.underway := by
  unfold loseBay; (repeat' split) <;> simp
@[simp] theorem loseBay_out (n : Fin 8) : (loseBay n s).out = s.out := by
  unfold loseBay; (repeat' split) <;> simp
@[simp] theorem loseBay_pending (n : Fin 8) : (loseBay n s).pending = s.pending := by
  unfold loseBay; (repeat' split) <;> simp
@[simp] theorem loseBay_op_reply (n : Fin 8) : (loseBay n s).op.reply = s.op.reply := by
  unfold loseBay; (repeat' split) <;> simp
@[simp] theorem loseBay_op_enables (n : Fin 8) : (loseBay n s).op.enables = s.op.enables := by
  unfold loseBay; (repeat' split) <;> simp
@[simp] theorem loseBay_minute (n : Fin 8) : (loseBay n s).minute = s.minute := by
  unfold loseBay; (repeat' split) <;> simp
@[simp] theorem loseBay_today (n : Fin 8) : (loseBay n s).today = s.today := by
  unfold loseBay; (repeat' split) <;> simp

/-! `startInterruptOne` -/

@[simp] theorem startInterruptOne_tc (f : Fin 16) : (startInterruptOne f s).tc = s.tc := by
  unfold startInterruptOne; dsimp only; split <;> simp
@[simp] theorem startInterruptOne_accounts (f : Fin 16) : (startInterruptOne f s).accounts = s.accounts := by
  unfold startInterruptOne; dsimp only; split <;> simp
@[simp] theorem startInterruptOne_hu (f : Fin 16) : (startInterruptOne f s).hu = s.hu := by
  unfold startInterruptOne; dsimp only; split <;> simp
@[simp] theorem startInterruptOne_gcu (f : Fin 16) : (startInterruptOne f s).gcu = s.gcu := by
  unfold startInterruptOne; dsimp only; split <;> simp
@[simp] theorem startInterruptOne_mr (f : Fin 16) : (startInterruptOne f s).mr = s.mr := by
  unfold startInterruptOne; dsimp only; split <;> simp
@[simp] theorem startInterruptOne_dl (f : Fin 16) : (startInterruptOne f s).dl = s.dl := by
  unfold startInterruptOne; dsimp only; split <;> simp
@[simp] theorem startInterruptOne_rc (f : Fin 16) : (startInterruptOne f s).rc = s.rc := by
  unfold startInterruptOne; dsimp only; split <;> simp
@[simp] theorem startInterruptOne_rlc (f : Fin 16) : (startInterruptOne f s).rlc = s.rlc := by
  unfold startInterruptOne; dsimp only; split <;> simp
@[simp] theorem startInterruptOne_mc (f : Fin 16) : (startInterruptOne f s).mc = s.mc := by
  unfold startInterruptOne; dsimp only; split <;> simp
@[simp] theorem startInterruptOne_pins (f : Fin 16) : (startInterruptOne f s).pins = s.pins := by
  unfold startInterruptOne; dsimp only; split <;> simp
@[simp] theorem startInterruptOne_underway (f : Fin 16) : (startInterruptOne f s).underway = s.underway := by
  unfold startInterruptOne; dsimp only; split <;> simp
@[simp] theorem startInterruptOne_out (f : Fin 16) : (startInterruptOne f s).out = s.out := by
  unfold startInterruptOne; dsimp only; split <;> simp
@[simp] theorem startInterruptOne_pending (f : Fin 16) : (startInterruptOne f s).pending = s.pending := by
  unfold startInterruptOne; dsimp only; split <;> simp
@[simp] theorem startInterruptOne_op_reply (f : Fin 16) : (startInterruptOne f s).op.reply = s.op.reply := by
  unfold startInterruptOne; dsimp only; split <;> simp
@[simp] theorem startInterruptOne_op_enables (f : Fin 16) : (startInterruptOne f s).op.enables = s.op.enables := by
  unfold startInterruptOne; dsimp only; split <;> simp
@[simp] theorem startInterruptOne_minute (f : Fin 16) : (startInterruptOne f s).minute = s.minute := by
  unfold startInterruptOne; dsimp only; split <;> simp
@[simp] theorem startInterruptOne_today (f : Fin 16) : (startInterruptOne f s).today = s.today := by
  unfold startInterruptOne; dsimp only; split <;> simp

/-! `startInterruption` -/

@[simp] theorem startInterruption_tc : (startInterruption s).tc = s.tc := by
  unfold startInterruption; exact overFolders_keeps (fun s : State => s.tc) _ (fun i s => by simp) s
@[simp] theorem startInterruption_accounts : (startInterruption s).accounts = s.accounts := by
  unfold startInterruption; exact overFolders_keeps (fun s : State => s.accounts) _ (fun i s => by simp) s
@[simp] theorem startInterruption_hu : (startInterruption s).hu = s.hu := by
  unfold startInterruption; exact overFolders_keeps (fun s : State => s.hu) _ (fun i s => by simp) s
@[simp] theorem startInterruption_gcu : (startInterruption s).gcu = s.gcu := by
  unfold startInterruption; exact overFolders_keeps (fun s : State => s.gcu) _ (fun i s => by simp) s
@[simp] theorem startInterruption_mr : (startInterruption s).mr = s.mr := by
  unfold startInterruption; exact overFolders_keeps (fun s : State => s.mr) _ (fun i s => by simp) s
@[simp] theorem startInterruption_dl : (startInterruption s).dl = s.dl := by
  unfold startInterruption; exact overFolders_keeps (fun s : State => s.dl) _ (fun i s => by simp) s
@[simp] theorem startInterruption_rc : (startInterruption s).rc = s.rc := by
  unfold startInterruption; exact overFolders_keeps (fun s : State => s.rc) _ (fun i s => by simp) s
@[simp] theorem startInterruption_rlc : (startInterruption s).rlc = s.rlc := by
  unfold startInterruption; exact overFolders_keeps (fun s : State => s.rlc) _ (fun i s => by simp) s
@[simp] theorem startInterruption_mc : (startInterruption s).mc = s.mc := by
  unfold startInterruption; exact overFolders_keeps (fun s : State => s.mc) _ (fun i s => by simp) s
@[simp] theorem startInterruption_pins : (startInterruption s).pins = s.pins := by
  unfold startInterruption; exact overFolders_keeps (fun s : State => s.pins) _ (fun i s => by simp) s
@[simp] theorem startInterruption_underway : (startInterruption s).underway = s.underway := by
  unfold startInterruption; exact overFolders_keeps (fun s : State => s.underway) _ (fun i s => by simp) s
@[simp] theorem startInterruption_out : (startInterruption s).out = s.out := by
  unfold startInterruption; exact overFolders_keeps (fun s : State => s.out) _ (fun i s => by simp) s
@[simp] theorem startInterruption_pending : (startInterruption s).pending = s.pending := by
  unfold startInterruption; exact overFolders_keeps (fun s : State => s.pending) _ (fun i s => by simp) s
@[simp] theorem startInterruption_op_reply : (startInterruption s).op.reply = s.op.reply := by
  unfold startInterruption; exact overFolders_keeps (fun s : State => s.op.reply) _ (fun i s => by simp) s
@[simp] theorem startInterruption_op_enables : (startInterruption s).op.enables = s.op.enables := by
  unfold startInterruption; exact overFolders_keeps (fun s : State => s.op.enables) _ (fun i s => by simp) s
@[simp] theorem startInterruption_minute : (startInterruption s).minute = s.minute := by
  unfold startInterruption; exact overFolders_keeps (fun s : State => s.minute) _ (fun i s => by simp) s
@[simp] theorem startInterruption_today : (startInterruption s).today = s.today := by
  unfold startInterruption; exact overFolders_keeps (fun s : State => s.today) _ (fun i s => by simp) s

/-! `setLiveFolder` -/

@[simp] theorem setLiveFolder_tc (f : Fin 16) (i : Fin 64) : (setLiveFolder f i s).tc = s.tc := by
  simp [setLiveFolder]
@[simp] theorem setLiveFolder_hu (f : Fin 16) (i : Fin 64) : (setLiveFolder f i s).hu = s.hu := by
  simp [setLiveFolder]
@[simp] theorem setLiveFolder_folders (f : Fin 16) (i : Fin 64) : (setLiveFolder f i s).folders = s.folders := by
  simp [setLiveFolder]
@[simp] theorem setLiveFolder_gcu (f : Fin 16) (i : Fin 64) : (setLiveFolder f i s).gcu = s.gcu := by
  simp [setLiveFolder]
@[simp] theorem setLiveFolder_mr (f : Fin 16) (i : Fin 64) : (setLiveFolder f i s).mr = s.mr := by
  simp [setLiveFolder]
@[simp] theorem setLiveFolder_dl (f : Fin 16) (i : Fin 64) : (setLiveFolder f i s).dl = s.dl := by
  simp [setLiveFolder]
@[simp] theorem setLiveFolder_rc (f : Fin 16) (i : Fin 64) : (setLiveFolder f i s).rc = s.rc := by
  simp [setLiveFolder]
@[simp] theorem setLiveFolder_rlc (f : Fin 16) (i : Fin 64) : (setLiveFolder f i s).rlc = s.rlc := by
  simp [setLiveFolder]
@[simp] theorem setLiveFolder_op (f : Fin 16) (i : Fin 64) : (setLiveFolder f i s).op = s.op := by
  simp [setLiveFolder]
@[simp] theorem setLiveFolder_mc (f : Fin 16) (i : Fin 64) : (setLiveFolder f i s).mc = s.mc := by
  simp [setLiveFolder]
@[simp] theorem setLiveFolder_pins (f : Fin 16) (i : Fin 64) : (setLiveFolder f i s).pins = s.pins := by
  simp [setLiveFolder]
@[simp] theorem setLiveFolder_underway (f : Fin 16) (i : Fin 64) : (setLiveFolder f i s).underway = s.underway := by
  simp [setLiveFolder]
@[simp] theorem setLiveFolder_out (f : Fin 16) (i : Fin 64) : (setLiveFolder f i s).out = s.out := by
  simp [setLiveFolder]
@[simp] theorem setLiveFolder_pending (f : Fin 16) (i : Fin 64) : (setLiveFolder f i s).pending = s.pending := by
  simp [setLiveFolder]
@[simp] theorem setLiveFolder_minute (f : Fin 16) (i : Fin 64) : (setLiveFolder f i s).minute = s.minute := by
  simp [setLiveFolder]
@[simp] theorem setLiveFolder_today (f : Fin 16) (i : Fin 64) : (setLiveFolder f i s).today = s.today := by
  simp [setLiveFolder]

/-! `openFolder` -/

@[simp] theorem openFolder_tc (f : Fin 16) (x : Folder) : (openFolder f x s).tc = s.tc := by
  exact (foldl_keeps (fun s : State => s.tc) (setLiveFolder f) (fun i s => by simp) _ _).trans (by simp)
@[simp] theorem openFolder_hu (f : Fin 16) (x : Folder) : (openFolder f x s).hu = s.hu := by
  exact (foldl_keeps (fun s : State => s.hu) (setLiveFolder f) (fun i s => by simp) _ _).trans (by simp)
@[simp] theorem openFolder_gcu (f : Fin 16) (x : Folder) : (openFolder f x s).gcu = s.gcu := by
  exact (foldl_keeps (fun s : State => s.gcu) (setLiveFolder f) (fun i s => by simp) _ _).trans (by simp)
@[simp] theorem openFolder_mr (f : Fin 16) (x : Folder) : (openFolder f x s).mr = s.mr := by
  exact (foldl_keeps (fun s : State => s.mr) (setLiveFolder f) (fun i s => by simp) _ _).trans (by simp)
@[simp] theorem openFolder_dl (f : Fin 16) (x : Folder) : (openFolder f x s).dl = s.dl := by
  exact (foldl_keeps (fun s : State => s.dl) (setLiveFolder f) (fun i s => by simp) _ _).trans (by simp)
@[simp] theorem openFolder_rc (f : Fin 16) (x : Folder) : (openFolder f x s).rc = s.rc := by
  exact (foldl_keeps (fun s : State => s.rc) (setLiveFolder f) (fun i s => by simp) _ _).trans (by simp)
@[simp] theorem openFolder_rlc (f : Fin 16) (x : Folder) : (openFolder f x s).rlc = s.rlc := by
  exact (foldl_keeps (fun s : State => s.rlc) (setLiveFolder f) (fun i s => by simp) _ _).trans (by simp)
@[simp] theorem openFolder_op (f : Fin 16) (x : Folder) : (openFolder f x s).op = s.op := by
  exact (foldl_keeps (fun s : State => s.op) (setLiveFolder f) (fun i s => by simp) _ _).trans (by simp)
@[simp] theorem openFolder_mc (f : Fin 16) (x : Folder) : (openFolder f x s).mc = s.mc := by
  exact (foldl_keeps (fun s : State => s.mc) (setLiveFolder f) (fun i s => by simp) _ _).trans (by simp)
@[simp] theorem openFolder_pins (f : Fin 16) (x : Folder) : (openFolder f x s).pins = s.pins := by
  exact (foldl_keeps (fun s : State => s.pins) (setLiveFolder f) (fun i s => by simp) _ _).trans (by simp)
@[simp] theorem openFolder_underway (f : Fin 16) (x : Folder) : (openFolder f x s).underway = s.underway := by
  exact (foldl_keeps (fun s : State => s.underway) (setLiveFolder f) (fun i s => by simp) _ _).trans (by simp)
@[simp] theorem openFolder_out (f : Fin 16) (x : Folder) : (openFolder f x s).out = s.out := by
  exact (foldl_keeps (fun s : State => s.out) (setLiveFolder f) (fun i s => by simp) _ _).trans (by simp)
@[simp] theorem openFolder_pending (f : Fin 16) (x : Folder) : (openFolder f x s).pending = s.pending := by
  exact (foldl_keeps (fun s : State => s.pending) (setLiveFolder f) (fun i s => by simp) _ _).trans (by simp)
@[simp] theorem openFolder_minute (f : Fin 16) (x : Folder) : (openFolder f x s).minute = s.minute := by
  exact (foldl_keeps (fun s : State => s.minute) (setLiveFolder f) (fun i s => by simp) _ _).trans (by simp)
@[simp] theorem openFolder_today (f : Fin 16) (x : Folder) : (openFolder f x s).today = s.today := by
  exact (foldl_keeps (fun s : State => s.today) (setLiveFolder f) (fun i s => by simp) _ _).trans (by simp)

/-! `returnAffected` -/

@[simp] theorem returnAffected_tc (g h : Fin 16) : (returnAffected g h s).tc = s.tc := by
  unfold returnAffected; exact overFolders_keeps (fun s => s.tc) _ (fun i s => by split <;> simp) s
@[simp] theorem returnAffected_accounts (g h : Fin 16) : (returnAffected g h s).accounts = s.accounts := by
  unfold returnAffected; exact overFolders_keeps (fun s => s.accounts) _ (fun i s => by split <;> simp) s
@[simp] theorem returnAffected_hu (g h : Fin 16) : (returnAffected g h s).hu = s.hu := by
  unfold returnAffected; exact overFolders_keeps (fun s => s.hu) _ (fun i s => by split <;> simp) s
@[simp] theorem returnAffected_gcu (g h : Fin 16) : (returnAffected g h s).gcu = s.gcu := by
  unfold returnAffected; exact overFolders_keeps (fun s => s.gcu) _ (fun i s => by split <;> simp) s
@[simp] theorem returnAffected_mr (g h : Fin 16) : (returnAffected g h s).mr = s.mr := by
  unfold returnAffected; exact overFolders_keeps (fun s => s.mr) _ (fun i s => by split <;> simp) s
@[simp] theorem returnAffected_dl (g h : Fin 16) : (returnAffected g h s).dl = s.dl := by
  unfold returnAffected; exact overFolders_keeps (fun s => s.dl) _ (fun i s => by split <;> simp) s
@[simp] theorem returnAffected_rc (g h : Fin 16) : (returnAffected g h s).rc = s.rc := by
  unfold returnAffected; exact overFolders_keeps (fun s => s.rc) _ (fun i s => by split <;> simp) s
@[simp] theorem returnAffected_rlc (g h : Fin 16) : (returnAffected g h s).rlc = s.rlc := by
  unfold returnAffected; exact overFolders_keeps (fun s => s.rlc) _ (fun i s => by split <;> simp) s
@[simp] theorem returnAffected_mc (g h : Fin 16) : (returnAffected g h s).mc = s.mc := by
  unfold returnAffected; exact overFolders_keeps (fun s => s.mc) _ (fun i s => by split <;> simp) s
@[simp] theorem returnAffected_pins (g h : Fin 16) : (returnAffected g h s).pins = s.pins := by
  unfold returnAffected; exact overFolders_keeps (fun s => s.pins) _ (fun i s => by split <;> simp) s
@[simp] theorem returnAffected_underway (g h : Fin 16) : (returnAffected g h s).underway = s.underway := by
  unfold returnAffected; exact overFolders_keeps (fun s => s.underway) _ (fun i s => by split <;> simp) s
@[simp] theorem returnAffected_out (g h : Fin 16) : (returnAffected g h s).out = s.out := by
  unfold returnAffected; exact overFolders_keeps (fun s => s.out) _ (fun i s => by split <;> simp) s
@[simp] theorem returnAffected_pending (g h : Fin 16) : (returnAffected g h s).pending = s.pending := by
  unfold returnAffected; exact overFolders_keeps (fun s => s.pending) _ (fun i s => by split <;> simp) s
@[simp] theorem returnAffected_op_reply (g h : Fin 16) : (returnAffected g h s).op.reply = s.op.reply := by
  unfold returnAffected; exact overFolders_keeps (fun s => s.op.reply) _ (fun i s => by split <;> simp) s
@[simp] theorem returnAffected_op_enables (g h : Fin 16) : (returnAffected g h s).op.enables = s.op.enables := by
  unfold returnAffected; exact overFolders_keeps (fun s => s.op.enables) _ (fun i s => by split <;> simp) s
@[simp] theorem returnAffected_minute (g h : Fin 16) : (returnAffected g h s).minute = s.minute := by
  unfold returnAffected; exact overFolders_keeps (fun s => s.minute) _ (fun i s => by split <;> simp) s
@[simp] theorem returnAffected_today (g h : Fin 16) : (returnAffected g h s).today = s.today := by
  unfold returnAffected; exact overFolders_keeps (fun s => s.today) _ (fun i s => by split <;> simp) s

/-! `appendEntry` -/

@[simp] theorem appendEntry_accounts (e : LogEntry) : (appendEntry e s).accounts = s.accounts := by
  unfold appendEntry; dsimp only; split <;> simp
@[simp] theorem appendEntry_hu (e : LogEntry) : (appendEntry e s).hu = s.hu := by
  unfold appendEntry; dsimp only; split <;> simp
@[simp] theorem appendEntry_folders (e : LogEntry) : (appendEntry e s).folders = s.folders := by
  unfold appendEntry; dsimp only; split <;> simp
@[simp] theorem appendEntry_gcu (e : LogEntry) : (appendEntry e s).gcu = s.gcu := by
  unfold appendEntry; dsimp only; split <;> simp
@[simp] theorem appendEntry_mr (e : LogEntry) : (appendEntry e s).mr = s.mr := by
  unfold appendEntry; dsimp only; split <;> simp
@[simp] theorem appendEntry_rc (e : LogEntry) : (appendEntry e s).rc = s.rc := by
  unfold appendEntry; dsimp only; split <;> simp
@[simp] theorem appendEntry_rlc (e : LogEntry) : (appendEntry e s).rlc = s.rlc := by
  unfold appendEntry; dsimp only; split <;> simp
@[simp] theorem appendEntry_mc (e : LogEntry) : (appendEntry e s).mc = s.mc := by
  unfold appendEntry; dsimp only; split <;> simp
@[simp] theorem appendEntry_pins (e : LogEntry) : (appendEntry e s).pins = s.pins := by
  unfold appendEntry; dsimp only; split <;> simp
@[simp] theorem appendEntry_underway (e : LogEntry) : (appendEntry e s).underway = s.underway := by
  unfold appendEntry; dsimp only; split <;> simp
@[simp] theorem appendEntry_out (e : LogEntry) : (appendEntry e s).out = s.out := by
  unfold appendEntry; dsimp only; split <;> simp
@[simp] theorem appendEntry_pending (e : LogEntry) : (appendEntry e s).pending = s.pending := by
  unfold appendEntry; dsimp only; split <;> simp
@[simp] theorem appendEntry_op_reply (e : LogEntry) : (appendEntry e s).op.reply = s.op.reply := by
  unfold appendEntry; dsimp only; split <;> simp
@[simp] theorem appendEntry_op_enables (e : LogEntry) : (appendEntry e s).op.enables = s.op.enables := by
  unfold appendEntry; dsimp only; split <;> simp
@[simp] theorem appendEntry_tc_clock (e : LogEntry) : (appendEntry e s).tc.clock = s.tc.clock := by
  unfold appendEntry; dsimp only; split <;> simp
@[simp] theorem appendEntry_tc_clockSet (e : LogEntry) : (appendEntry e s).tc.clockSet = s.tc.clockSet := by
  unfold appendEntry; dsimp only; split <;> simp
@[simp] theorem appendEntry_tc_dayOffset (e : LogEntry) : (appendEntry e s).tc.dayOffset = s.tc.dayOffset := by
  unfold appendEntry; dsimp only; split <;> simp
@[simp] theorem appendEntry_tc_treatedDay (e : LogEntry) : (appendEntry e s).tc.treatedDay = s.tc.treatedDay := by
  unfold appendEntry; dsimp only; split <;> simp
@[simp] theorem appendEntry_tc_minuteDue (e : LogEntry) : (appendEntry e s).tc.minuteDue = s.tc.minuteDue := by
  unfold appendEntry; dsimp only; split <;> simp
@[simp] theorem appendEntry_minute (e : LogEntry) : (appendEntry e s).minute = s.minute := by
  simp [State.minute]
@[simp] theorem appendEntry_today (e : LogEntry) : (appendEntry e s).today = s.today := by
  simp [State.today, State.minute]

/-! `grantRelease` -/

@[simp] theorem grantRelease_accounts (f : Fin 16) (t : Nat) : (grantRelease f t s).accounts = s.accounts := by
  simp [grantRelease]
@[simp] theorem grantRelease_hu (f : Fin 16) (t : Nat) : (grantRelease f t s).hu = s.hu := by
  simp [grantRelease]
@[simp] theorem grantRelease_gcu (f : Fin 16) (t : Nat) : (grantRelease f t s).gcu = s.gcu := by
  simp [grantRelease]
@[simp] theorem grantRelease_mr (f : Fin 16) (t : Nat) : (grantRelease f t s).mr = s.mr := by
  simp [grantRelease]
@[simp] theorem grantRelease_rc (f : Fin 16) (t : Nat) : (grantRelease f t s).rc = s.rc := by
  simp [grantRelease]
@[simp] theorem grantRelease_rlc (f : Fin 16) (t : Nat) : (grantRelease f t s).rlc = s.rlc := by
  simp [grantRelease]
@[simp] theorem grantRelease_mc (f : Fin 16) (t : Nat) : (grantRelease f t s).mc = s.mc := by
  simp [grantRelease]
@[simp] theorem grantRelease_pins (f : Fin 16) (t : Nat) : (grantRelease f t s).pins = s.pins := by
  simp [grantRelease]
@[simp] theorem grantRelease_underway (f : Fin 16) (t : Nat) : (grantRelease f t s).underway = s.underway := by
  simp [grantRelease]
@[simp] theorem grantRelease_out (f : Fin 16) (t : Nat) : (grantRelease f t s).out = s.out := by
  simp [grantRelease]
@[simp] theorem grantRelease_pending (f : Fin 16) (t : Nat) : (grantRelease f t s).pending = s.pending := by
  simp [grantRelease]
@[simp] theorem grantRelease_op_reply (f : Fin 16) (t : Nat) : (grantRelease f t s).op.reply = s.op.reply := by
  simp [grantRelease]
@[simp] theorem grantRelease_op_enables (f : Fin 16) (t : Nat) : (grantRelease f t s).op.enables = s.op.enables := by
  simp [grantRelease]
@[simp] theorem grantRelease_tc_clock (f : Fin 16) (t : Nat) : (grantRelease f t s).tc.clock = s.tc.clock := by
  simp [grantRelease]
@[simp] theorem grantRelease_tc_clockSet (f : Fin 16) (t : Nat) : (grantRelease f t s).tc.clockSet = s.tc.clockSet := by
  simp [grantRelease]
@[simp] theorem grantRelease_tc_dayOffset (f : Fin 16) (t : Nat) : (grantRelease f t s).tc.dayOffset = s.tc.dayOffset := by
  simp [grantRelease]
@[simp] theorem grantRelease_tc_treatedDay (f : Fin 16) (t : Nat) : (grantRelease f t s).tc.treatedDay = s.tc.treatedDay := by
  simp [grantRelease]
@[simp] theorem grantRelease_tc_minuteDue (f : Fin 16) (t : Nat) : (grantRelease f t s).tc.minuteDue = s.tc.minuteDue := by
  simp [grantRelease]
@[simp] theorem grantRelease_minute (f : Fin 16) (t : Nat) : (grantRelease f t s).minute = s.minute := by
  simp [grantRelease]
@[simp] theorem grantRelease_today (f : Fin 16) (t : Nat) : (grantRelease f t s).today = s.today := by
  simp [grantRelease]

/-! `updateNode` -/

@[simp] theorem updateNode_tc (n : Fin 9) (e : NodeEntry) : (updateNode n e s).tc = s.tc := by
  unfold updateNode; dsimp only; (repeat' split) <;> simp
@[simp] theorem updateNode_accounts (n : Fin 9) (e : NodeEntry) : (updateNode n e s).accounts = s.accounts := by
  unfold updateNode; dsimp only; (repeat' split) <;> simp
@[simp] theorem updateNode_hu (n : Fin 9) (e : NodeEntry) : (updateNode n e s).hu = s.hu := by
  unfold updateNode; dsimp only; (repeat' split) <;> simp
@[simp] theorem updateNode_gcu (n : Fin 9) (e : NodeEntry) : (updateNode n e s).gcu = s.gcu := by
  unfold updateNode; dsimp only; (repeat' split) <;> simp
@[simp] theorem updateNode_mr (n : Fin 9) (e : NodeEntry) : (updateNode n e s).mr = s.mr := by
  unfold updateNode; dsimp only; (repeat' split) <;> simp
@[simp] theorem updateNode_dl (n : Fin 9) (e : NodeEntry) : (updateNode n e s).dl = s.dl := by
  unfold updateNode; dsimp only; (repeat' split) <;> simp
@[simp] theorem updateNode_rc (n : Fin 9) (e : NodeEntry) : (updateNode n e s).rc = s.rc := by
  unfold updateNode; dsimp only; (repeat' split) <;> simp
@[simp] theorem updateNode_mc (n : Fin 9) (e : NodeEntry) : (updateNode n e s).mc = s.mc := by
  unfold updateNode; dsimp only; (repeat' split) <;> simp
@[simp] theorem updateNode_pins (n : Fin 9) (e : NodeEntry) : (updateNode n e s).pins = s.pins := by
  unfold updateNode; dsimp only; (repeat' split) <;> simp
@[simp] theorem updateNode_underway (n : Fin 9) (e : NodeEntry) : (updateNode n e s).underway = s.underway := by
  unfold updateNode; dsimp only; (repeat' split) <;> simp
@[simp] theorem updateNode_out (n : Fin 9) (e : NodeEntry) : (updateNode n e s).out = s.out := by
  unfold updateNode; dsimp only; (repeat' split) <;> simp
@[simp] theorem updateNode_pending (n : Fin 9) (e : NodeEntry) : (updateNode n e s).pending = s.pending := by
  unfold updateNode; dsimp only; (repeat' split) <;> simp
@[simp] theorem updateNode_op_reply (n : Fin 9) (e : NodeEntry) : (updateNode n e s).op.reply = s.op.reply := by
  unfold updateNode; dsimp only; (repeat' split) <;> simp
@[simp] theorem updateNode_op_enables (n : Fin 9) (e : NodeEntry) : (updateNode n e s).op.enables = s.op.enables := by
  unfold updateNode; dsimp only; (repeat' split) <;> simp
@[simp] theorem updateNode_minute (n : Fin 9) (e : NodeEntry) : (updateNode n e s).minute = s.minute := by
  unfold updateNode; dsimp only; (repeat' split) <;> simp
@[simp] theorem updateNode_today (n : Fin 9) (e : NodeEntry) : (updateNode n e s).today = s.today := by
  unfold updateNode; dsimp only; (repeat' split) <;> simp

/-! `carryFolders` -/

@[simp] theorem carryFolders_tc (l : List (Fin 16)) : ∀ (room : Nat) s, (carryFolders l room s).tc = s.tc := by
  induction l with
  | nil => intro r s; rfl
  | cons f rest ih => intro r s; simp [carryFolders, ih]
@[simp] theorem carryFolders_accounts (l : List (Fin 16)) : ∀ (room : Nat) s, (carryFolders l room s).accounts = s.accounts := by
  induction l with
  | nil => intro r s; rfl
  | cons f rest ih => intro r s; simp [carryFolders, ih]
@[simp] theorem carryFolders_hu (l : List (Fin 16)) : ∀ (room : Nat) s, (carryFolders l room s).hu = s.hu := by
  induction l with
  | nil => intro r s; rfl
  | cons f rest ih => intro r s; simp [carryFolders, ih]
@[simp] theorem carryFolders_gcu (l : List (Fin 16)) : ∀ (room : Nat) s, (carryFolders l room s).gcu = s.gcu := by
  induction l with
  | nil => intro r s; rfl
  | cons f rest ih => intro r s; simp [carryFolders, ih]
@[simp] theorem carryFolders_mr (l : List (Fin 16)) : ∀ (room : Nat) s, (carryFolders l room s).mr = s.mr := by
  induction l with
  | nil => intro r s; rfl
  | cons f rest ih => intro r s; simp [carryFolders, ih]
@[simp] theorem carryFolders_dl (l : List (Fin 16)) : ∀ (room : Nat) s, (carryFolders l room s).dl = s.dl := by
  induction l with
  | nil => intro r s; rfl
  | cons f rest ih => intro r s; simp [carryFolders, ih]
@[simp] theorem carryFolders_rc (l : List (Fin 16)) : ∀ (room : Nat) s, (carryFolders l room s).rc = s.rc := by
  induction l with
  | nil => intro r s; rfl
  | cons f rest ih => intro r s; simp [carryFolders, ih]
@[simp] theorem carryFolders_rlc (l : List (Fin 16)) : ∀ (room : Nat) s, (carryFolders l room s).rlc = s.rlc := by
  induction l with
  | nil => intro r s; rfl
  | cons f rest ih => intro r s; simp [carryFolders, ih]
@[simp] theorem carryFolders_op (l : List (Fin 16)) : ∀ (room : Nat) s, (carryFolders l room s).op = s.op := by
  induction l with
  | nil => intro r s; rfl
  | cons f rest ih => intro r s; simp [carryFolders, ih]
@[simp] theorem carryFolders_mc (l : List (Fin 16)) : ∀ (room : Nat) s, (carryFolders l room s).mc = s.mc := by
  induction l with
  | nil => intro r s; rfl
  | cons f rest ih => intro r s; simp [carryFolders, ih]
@[simp] theorem carryFolders_pins (l : List (Fin 16)) : ∀ (room : Nat) s, (carryFolders l room s).pins = s.pins := by
  induction l with
  | nil => intro r s; rfl
  | cons f rest ih => intro r s; simp [carryFolders, ih]
@[simp] theorem carryFolders_underway (l : List (Fin 16)) : ∀ (room : Nat) s, (carryFolders l room s).underway = s.underway := by
  induction l with
  | nil => intro r s; rfl
  | cons f rest ih => intro r s; simp [carryFolders, ih]
@[simp] theorem carryFolders_out (l : List (Fin 16)) : ∀ (room : Nat) s, (carryFolders l room s).out = s.out := by
  induction l with
  | nil => intro r s; rfl
  | cons f rest ih => intro r s; simp [carryFolders, ih]
@[simp] theorem carryFolders_pending (l : List (Fin 16)) : ∀ (room : Nat) s, (carryFolders l room s).pending = s.pending := by
  induction l with
  | nil => intro r s; rfl
  | cons f rest ih => intro r s; simp [carryFolders, ih]
@[simp] theorem carryFolders_minute (l : List (Fin 16)) : ∀ (room : Nat) s, (carryFolders l room s).minute = s.minute := by
  induction l with
  | nil => intro r s; rfl
  | cons f rest ih => intro r s; simp [carryFolders, ih]
@[simp] theorem carryFolders_today (l : List (Fin 16)) : ∀ (room : Nat) s, (carryFolders l room s).today = s.today := by
  induction l with
  | nil => intro r s; rfl
  | cons f rest ih => intro r s; simp [carryFolders, ih]

/-! `sendBeacon` -/

@[simp] theorem sendBeacon_tc : (sendBeacon s).tc = s.tc := by
  simp [sendBeacon]
@[simp] theorem sendBeacon_accounts : (sendBeacon s).accounts = s.accounts := by
  simp [sendBeacon]
@[simp] theorem sendBeacon_hu : (sendBeacon s).hu = s.hu := by
  simp [sendBeacon]
@[simp] theorem sendBeacon_gcu : (sendBeacon s).gcu = s.gcu := by
  simp [sendBeacon]
@[simp] theorem sendBeacon_mr : (sendBeacon s).mr = s.mr := by
  simp [sendBeacon]
@[simp] theorem sendBeacon_dl : (sendBeacon s).dl = s.dl := by
  simp [sendBeacon]
@[simp] theorem sendBeacon_rc : (sendBeacon s).rc = s.rc := by
  simp [sendBeacon]
@[simp] theorem sendBeacon_op : (sendBeacon s).op = s.op := by
  simp [sendBeacon]
@[simp] theorem sendBeacon_mc : (sendBeacon s).mc = s.mc := by
  simp [sendBeacon]
@[simp] theorem sendBeacon_pins : (sendBeacon s).pins = s.pins := by
  simp [sendBeacon]
@[simp] theorem sendBeacon_pending : (sendBeacon s).pending = s.pending := by
  simp [sendBeacon]
@[simp] theorem sendBeacon_minute : (sendBeacon s).minute = s.minute := by
  simp [State.minute]
@[simp] theorem sendBeacon_today : (sendBeacon s).today = s.today := by
  simp [State.today, State.minute]

/-! `recomputeProfile` -/

@[simp] theorem recomputeProfile_tc (p : ProfileLetter) : (recomputeProfile p s).tc = s.tc := by
  unfold recomputeProfile; exact overAccounts_keeps (fun s => s.tc) _ (fun i s => by split <;> simp) s
@[simp] theorem recomputeProfile_folders (p : ProfileLetter) : (recomputeProfile p s).folders = s.folders := by
  unfold recomputeProfile; exact overAccounts_keeps (fun s => s.folders) _ (fun i s => by split <;> simp) s
@[simp] theorem recomputeProfile_gcu (p : ProfileLetter) : (recomputeProfile p s).gcu = s.gcu := by
  unfold recomputeProfile; exact overAccounts_keeps (fun s => s.gcu) _ (fun i s => by split <;> simp) s
@[simp] theorem recomputeProfile_mr (p : ProfileLetter) : (recomputeProfile p s).mr = s.mr := by
  unfold recomputeProfile; exact overAccounts_keeps (fun s => s.mr) _ (fun i s => by split <;> simp) s
@[simp] theorem recomputeProfile_dl (p : ProfileLetter) : (recomputeProfile p s).dl = s.dl := by
  unfold recomputeProfile; exact overAccounts_keeps (fun s => s.dl) _ (fun i s => by split <;> simp) s
@[simp] theorem recomputeProfile_rc (p : ProfileLetter) : (recomputeProfile p s).rc = s.rc := by
  unfold recomputeProfile; exact overAccounts_keeps (fun s => s.rc) _ (fun i s => by split <;> simp) s
@[simp] theorem recomputeProfile_rlc (p : ProfileLetter) : (recomputeProfile p s).rlc = s.rlc := by
  unfold recomputeProfile; exact overAccounts_keeps (fun s => s.rlc) _ (fun i s => by split <;> simp) s
@[simp] theorem recomputeProfile_mc (p : ProfileLetter) : (recomputeProfile p s).mc = s.mc := by
  unfold recomputeProfile; exact overAccounts_keeps (fun s => s.mc) _ (fun i s => by split <;> simp) s
@[simp] theorem recomputeProfile_pins (p : ProfileLetter) : (recomputeProfile p s).pins = s.pins := by
  unfold recomputeProfile; exact overAccounts_keeps (fun s => s.pins) _ (fun i s => by split <;> simp) s
@[simp] theorem recomputeProfile_underway (p : ProfileLetter) : (recomputeProfile p s).underway = s.underway := by
  unfold recomputeProfile; exact overAccounts_keeps (fun s => s.underway) _ (fun i s => by split <;> simp) s
@[simp] theorem recomputeProfile_out (p : ProfileLetter) : (recomputeProfile p s).out = s.out := by
  unfold recomputeProfile; exact overAccounts_keeps (fun s => s.out) _ (fun i s => by split <;> simp) s
@[simp] theorem recomputeProfile_pending (p : ProfileLetter) : (recomputeProfile p s).pending = s.pending := by
  unfold recomputeProfile; exact overAccounts_keeps (fun s => s.pending) _ (fun i s => by split <;> simp) s
@[simp] theorem recomputeProfile_hu_profileA (p : ProfileLetter) : (recomputeProfile p s).hu.profileA = s.hu.profileA := by
  unfold recomputeProfile; exact overAccounts_keeps (fun s => s.hu.profileA) _ (fun i s => by split <;> simp) s
@[simp] theorem recomputeProfile_hu_profileB (p : ProfileLetter) : (recomputeProfile p s).hu.profileB = s.hu.profileB := by
  unfold recomputeProfile; exact overAccounts_keeps (fun s => s.hu.profileB) _ (fun i s => by split <;> simp) s
@[simp] theorem recomputeProfile_op_reply (p : ProfileLetter) : (recomputeProfile p s).op.reply = s.op.reply := by
  unfold recomputeProfile; exact overAccounts_keeps (fun s => s.op.reply) _ (fun i s => by split <;> simp) s
@[simp] theorem recomputeProfile_op_enables (p : ProfileLetter) : (recomputeProfile p s).op.enables = s.op.enables := by
  unfold recomputeProfile; exact overAccounts_keeps (fun s => s.op.enables) _ (fun i s => by split <;> simp) s
@[simp] theorem recomputeProfile_minute (p : ProfileLetter) : (recomputeProfile p s).minute = s.minute := by
  unfold recomputeProfile; exact overAccounts_keeps (fun s => s.minute) _ (fun i s => by split <;> simp) s
@[simp] theorem recomputeProfile_today (p : ProfileLetter) : (recomputeProfile p s).today = s.today := by
  unfold recomputeProfile; exact overAccounts_keeps (fun s => s.today) _ (fun i s => by split <;> simp) s

/-! `clearExpired` -/

@[simp] theorem clearExpired_tc (i : Fin 64) : (clearExpired i s).tc = s.tc := by
  unfold clearExpired; split <;> simp
@[simp] theorem clearExpired_hu (i : Fin 64) : (clearExpired i s).hu = s.hu := by
  unfold clearExpired; split <;> simp
@[simp] theorem clearExpired_folders (i : Fin 64) : (clearExpired i s).folders = s.folders := by
  unfold clearExpired; split <;> simp
@[simp] theorem clearExpired_gcu (i : Fin 64) : (clearExpired i s).gcu = s.gcu := by
  unfold clearExpired; split <;> simp
@[simp] theorem clearExpired_mr (i : Fin 64) : (clearExpired i s).mr = s.mr := by
  unfold clearExpired; split <;> simp
@[simp] theorem clearExpired_dl (i : Fin 64) : (clearExpired i s).dl = s.dl := by
  unfold clearExpired; split <;> simp
@[simp] theorem clearExpired_rc (i : Fin 64) : (clearExpired i s).rc = s.rc := by
  unfold clearExpired; split <;> simp
@[simp] theorem clearExpired_rlc (i : Fin 64) : (clearExpired i s).rlc = s.rlc := by
  unfold clearExpired; split <;> simp
@[simp] theorem clearExpired_op (i : Fin 64) : (clearExpired i s).op = s.op := by
  unfold clearExpired; split <;> simp
@[simp] theorem clearExpired_mc (i : Fin 64) : (clearExpired i s).mc = s.mc := by
  unfold clearExpired; split <;> simp
@[simp] theorem clearExpired_pins (i : Fin 64) : (clearExpired i s).pins = s.pins := by
  unfold clearExpired; split <;> simp
@[simp] theorem clearExpired_underway (i : Fin 64) : (clearExpired i s).underway = s.underway := by
  unfold clearExpired; split <;> simp
@[simp] theorem clearExpired_out (i : Fin 64) : (clearExpired i s).out = s.out := by
  unfold clearExpired; split <;> simp
@[simp] theorem clearExpired_pending (i : Fin 64) : (clearExpired i s).pending = s.pending := by
  unfold clearExpired; split <;> simp
@[simp] theorem clearExpired_minute (i : Fin 64) : (clearExpired i s).minute = s.minute := by
  unfold clearExpired; split <;> simp
@[simp] theorem clearExpired_today (i : Fin 64) : (clearExpired i s).today = s.today := by
  unfold clearExpired; split <;> simp

/-! `editRecord` -/

@[simp] theorem editRecord_tc (i : Fin 64) (c : Nat) (p : ProfileLetter) (e : Byte) (x : Nat) : (editRecord i c p e x s).tc = s.tc := by
  unfold editRecord; dsimp only; split <;> simp
@[simp] theorem editRecord_folders (i : Fin 64) (c : Nat) (p : ProfileLetter) (e : Byte) (x : Nat) : (editRecord i c p e x s).folders = s.folders := by
  unfold editRecord; dsimp only; split <;> simp
@[simp] theorem editRecord_gcu (i : Fin 64) (c : Nat) (p : ProfileLetter) (e : Byte) (x : Nat) : (editRecord i c p e x s).gcu = s.gcu := by
  unfold editRecord; dsimp only; split <;> simp
@[simp] theorem editRecord_mr (i : Fin 64) (c : Nat) (p : ProfileLetter) (e : Byte) (x : Nat) : (editRecord i c p e x s).mr = s.mr := by
  unfold editRecord; dsimp only; split <;> simp
@[simp] theorem editRecord_dl (i : Fin 64) (c : Nat) (p : ProfileLetter) (e : Byte) (x : Nat) : (editRecord i c p e x s).dl = s.dl := by
  unfold editRecord; dsimp only; split <;> simp
@[simp] theorem editRecord_rc (i : Fin 64) (c : Nat) (p : ProfileLetter) (e : Byte) (x : Nat) : (editRecord i c p e x s).rc = s.rc := by
  unfold editRecord; dsimp only; split <;> simp
@[simp] theorem editRecord_rlc (i : Fin 64) (c : Nat) (p : ProfileLetter) (e : Byte) (x : Nat) : (editRecord i c p e x s).rlc = s.rlc := by
  unfold editRecord; dsimp only; split <;> simp
@[simp] theorem editRecord_mc (i : Fin 64) (c : Nat) (p : ProfileLetter) (e : Byte) (x : Nat) : (editRecord i c p e x s).mc = s.mc := by
  unfold editRecord; dsimp only; split <;> simp
@[simp] theorem editRecord_pins (i : Fin 64) (c : Nat) (p : ProfileLetter) (e : Byte) (x : Nat) : (editRecord i c p e x s).pins = s.pins := by
  unfold editRecord; dsimp only; split <;> simp
@[simp] theorem editRecord_underway (i : Fin 64) (c : Nat) (p : ProfileLetter) (e : Byte) (x : Nat) : (editRecord i c p e x s).underway = s.underway := by
  unfold editRecord; dsimp only; split <;> simp
@[simp] theorem editRecord_out (i : Fin 64) (c : Nat) (p : ProfileLetter) (e : Byte) (x : Nat) : (editRecord i c p e x s).out = s.out := by
  unfold editRecord; dsimp only; split <;> simp
@[simp] theorem editRecord_pending (i : Fin 64) (c : Nat) (p : ProfileLetter) (e : Byte) (x : Nat) : (editRecord i c p e x s).pending = s.pending := by
  unfold editRecord; dsimp only; split <;> simp
@[simp] theorem editRecord_hu_profileA (i : Fin 64) (c : Nat) (p : ProfileLetter) (e : Byte) (x : Nat) : (editRecord i c p e x s).hu.profileA = s.hu.profileA := by
  unfold editRecord; dsimp only; split <;> simp
@[simp] theorem editRecord_hu_profileB (i : Fin 64) (c : Nat) (p : ProfileLetter) (e : Byte) (x : Nat) : (editRecord i c p e x s).hu.profileB = s.hu.profileB := by
  unfold editRecord; dsimp only; split <;> simp
@[simp] theorem editRecord_op_reply (i : Fin 64) (c : Nat) (p : ProfileLetter) (e : Byte) (x : Nat) : (editRecord i c p e x s).op.reply = s.op.reply := by
  unfold editRecord; dsimp only; split <;> simp
@[simp] theorem editRecord_op_enables (i : Fin 64) (c : Nat) (p : ProfileLetter) (e : Byte) (x : Nat) : (editRecord i c p e x s).op.enables = s.op.enables := by
  unfold editRecord; dsimp only; split <;> simp
@[simp] theorem editRecord_minute (i : Fin 64) (c : Nat) (p : ProfileLetter) (e : Byte) (x : Nat) : (editRecord i c p e x s).minute = s.minute := by
  unfold editRecord; dsimp only; split <;> simp
@[simp] theorem editRecord_today (i : Fin 64) (c : Nat) (p : ProfileLetter) (e : Byte) (x : Nat) : (editRecord i c p e x s).today = s.today := by
  unfold editRecord; dsimp only; split <;> simp

/-! `driversLeave` -/

@[simp] theorem driversLeave_folders (x : Folder) (t : Nat) : (driversLeave x t s).folders = s.folders := by
  unfold driversLeave; dsimp only; split <;> simp
@[simp] theorem driversLeave_gcu (x : Folder) (t : Nat) : (driversLeave x t s).gcu = s.gcu := by
  unfold driversLeave; dsimp only; split <;> simp
@[simp] theorem driversLeave_mr (x : Folder) (t : Nat) : (driversLeave x t s).mr = s.mr := by
  unfold driversLeave; dsimp only; split <;> simp
@[simp] theorem driversLeave_dl (x : Folder) (t : Nat) : (driversLeave x t s).dl = s.dl := by
  unfold driversLeave; dsimp only; split <;> simp
@[simp] theorem driversLeave_rc (x : Folder) (t : Nat) : (driversLeave x t s).rc = s.rc := by
  unfold driversLeave; dsimp only; split <;> simp
@[simp] theorem driversLeave_rlc (x : Folder) (t : Nat) : (driversLeave x t s).rlc = s.rlc := by
  unfold driversLeave; dsimp only; split <;> simp
@[simp] theorem driversLeave_mc (x : Folder) (t : Nat) : (driversLeave x t s).mc = s.mc := by
  unfold driversLeave; dsimp only; split <;> simp
@[simp] theorem driversLeave_pins (x : Folder) (t : Nat) : (driversLeave x t s).pins = s.pins := by
  unfold driversLeave; dsimp only; split <;> simp
@[simp] theorem driversLeave_underway (x : Folder) (t : Nat) : (driversLeave x t s).underway = s.underway := by
  unfold driversLeave; dsimp only; split <;> simp
@[simp] theorem driversLeave_out (x : Folder) (t : Nat) : (driversLeave x t s).out = s.out := by
  unfold driversLeave; dsimp only; split <;> simp
@[simp] theorem driversLeave_pending (x : Folder) (t : Nat) : (driversLeave x t s).pending = s.pending := by
  unfold driversLeave; dsimp only; split <;> simp
@[simp] theorem driversLeave_hu_profileA (x : Folder) (t : Nat) : (driversLeave x t s).hu.profileA = s.hu.profileA := by
  unfold driversLeave; dsimp only; split <;> simp
@[simp] theorem driversLeave_hu_profileB (x : Folder) (t : Nat) : (driversLeave x t s).hu.profileB = s.hu.profileB := by
  unfold driversLeave; dsimp only; split <;> simp
@[simp] theorem driversLeave_op_reply (x : Folder) (t : Nat) : (driversLeave x t s).op.reply = s.op.reply := by
  unfold driversLeave; dsimp only; split <;> simp
@[simp] theorem driversLeave_op_enables (x : Folder) (t : Nat) : (driversLeave x t s).op.enables = s.op.enables := by
  unfold driversLeave; dsimp only; split <;> simp

/-! `voidStops` -/

@[simp] theorem voidStops_tc (f : Fin 16) : (voidStops f s).tc = s.tc := by
  unfold voidStops; split <;> simp
@[simp] theorem voidStops_accounts (f : Fin 16) : (voidStops f s).accounts = s.accounts := by
  unfold voidStops; split <;> simp
@[simp] theorem voidStops_hu (f : Fin 16) : (voidStops f s).hu = s.hu := by
  unfold voidStops; split <;> simp
@[simp] theorem voidStops_gcu (f : Fin 16) : (voidStops f s).gcu = s.gcu := by
  unfold voidStops; split <;> simp
@[simp] theorem voidStops_mr (f : Fin 16) : (voidStops f s).mr = s.mr := by
  unfold voidStops; split <;> simp
@[simp] theorem voidStops_dl (f : Fin 16) : (voidStops f s).dl = s.dl := by
  unfold voidStops; split <;> simp
@[simp] theorem voidStops_rc (f : Fin 16) : (voidStops f s).rc = s.rc := by
  unfold voidStops; split <;> simp
@[simp] theorem voidStops_rlc (f : Fin 16) : (voidStops f s).rlc = s.rlc := by
  unfold voidStops; split <;> simp
@[simp] theorem voidStops_op (f : Fin 16) : (voidStops f s).op = s.op := by
  unfold voidStops; split <;> simp
@[simp] theorem voidStops_mc (f : Fin 16) : (voidStops f s).mc = s.mc := by
  unfold voidStops; split <;> simp
@[simp] theorem voidStops_pins (f : Fin 16) : (voidStops f s).pins = s.pins := by
  unfold voidStops; split <;> simp
@[simp] theorem voidStops_underway (f : Fin 16) : (voidStops f s).underway = s.underway := by
  unfold voidStops; split <;> simp
@[simp] theorem voidStops_out (f : Fin 16) : (voidStops f s).out = s.out := by
  unfold voidStops; split <;> simp
@[simp] theorem voidStops_pending (f : Fin 16) : (voidStops f s).pending = s.pending := by
  unfold voidStops; split <;> simp
@[simp] theorem voidStops_minute (f : Fin 16) : (voidStops f s).minute = s.minute := by
  unfold voidStops; split <;> simp
@[simp] theorem voidStops_today (f : Fin 16) : (voidStops f s).today = s.today := by
  unfold voidStops; split <;> simp

/-! `voidLogged` -/

@[simp] theorem voidLogged_accounts (t : Nat) (f : Fin 16) : (voidLogged t f s).accounts = s.accounts := by
  unfold voidLogged; split <;> simp
@[simp] theorem voidLogged_hu (t : Nat) (f : Fin 16) : (voidLogged t f s).hu = s.hu := by
  unfold voidLogged; split <;> simp
@[simp] theorem voidLogged_folders (t : Nat) (f : Fin 16) : (voidLogged t f s).folders = s.folders := by
  unfold voidLogged; split <;> simp
@[simp] theorem voidLogged_gcu (t : Nat) (f : Fin 16) : (voidLogged t f s).gcu = s.gcu := by
  unfold voidLogged; split <;> simp
@[simp] theorem voidLogged_mr (t : Nat) (f : Fin 16) : (voidLogged t f s).mr = s.mr := by
  unfold voidLogged; split <;> simp
@[simp] theorem voidLogged_rc (t : Nat) (f : Fin 16) : (voidLogged t f s).rc = s.rc := by
  unfold voidLogged; split <;> simp
@[simp] theorem voidLogged_rlc (t : Nat) (f : Fin 16) : (voidLogged t f s).rlc = s.rlc := by
  unfold voidLogged; split <;> simp
@[simp] theorem voidLogged_mc (t : Nat) (f : Fin 16) : (voidLogged t f s).mc = s.mc := by
  unfold voidLogged; split <;> simp
@[simp] theorem voidLogged_pins (t : Nat) (f : Fin 16) : (voidLogged t f s).pins = s.pins := by
  unfold voidLogged; split <;> simp
@[simp] theorem voidLogged_underway (t : Nat) (f : Fin 16) : (voidLogged t f s).underway = s.underway := by
  unfold voidLogged; split <;> simp
@[simp] theorem voidLogged_out (t : Nat) (f : Fin 16) : (voidLogged t f s).out = s.out := by
  unfold voidLogged; split <;> simp
@[simp] theorem voidLogged_pending (t : Nat) (f : Fin 16) : (voidLogged t f s).pending = s.pending := by
  unfold voidLogged; split <;> simp
@[simp] theorem voidLogged_op_reply (t : Nat) (f : Fin 16) : (voidLogged t f s).op.reply = s.op.reply := by
  unfold voidLogged; split <;> simp
@[simp] theorem voidLogged_op_enables (t : Nat) (f : Fin 16) : (voidLogged t f s).op.enables = s.op.enables := by
  unfold voidLogged; split <;> simp
@[simp] theorem voidLogged_tc_clock (t : Nat) (f : Fin 16) : (voidLogged t f s).tc.clock = s.tc.clock := by
  unfold voidLogged; split <;> simp
@[simp] theorem voidLogged_tc_clockSet (t : Nat) (f : Fin 16) : (voidLogged t f s).tc.clockSet = s.tc.clockSet := by
  unfold voidLogged; split <;> simp
@[simp] theorem voidLogged_tc_dayOffset (t : Nat) (f : Fin 16) : (voidLogged t f s).tc.dayOffset = s.tc.dayOffset := by
  unfold voidLogged; split <;> simp
@[simp] theorem voidLogged_tc_treatedDay (t : Nat) (f : Fin 16) : (voidLogged t f s).tc.treatedDay = s.tc.treatedDay := by
  unfold voidLogged; split <;> simp
@[simp] theorem voidLogged_tc_minuteDue (t : Nat) (f : Fin 16) : (voidLogged t f s).tc.minuteDue = s.tc.minuteDue := by
  unfold voidLogged; split <;> simp
@[simp] theorem voidLogged_minute (t : Nat) (f : Fin 16) : (voidLogged t f s).minute = s.minute := by
  unfold voidLogged; split <;> simp
@[simp] theorem voidLogged_today (t : Nat) (f : Fin 16) : (voidLogged t f s).today = s.today := by
  unfold voidLogged; split <;> simp

end Sys2Proof.Machine
end

