-- ==== Sys2Proof/Laws/Wrappers.lean ====
section
/-! SUPPORT. What the wrappers of office commands and of link frames can do, said once: a property that each of their
steps keeps is kept by the whole; and the state an admitted command or a served frame meets. -/

namespace Sys2Proof.Machine

/-! ## Office commands -/

/-- What a moment of a transaction can do: nothing, a move of the port, or the handling of the command. -/
theorem transaction_cases (m : OfficeMoment) (n : Nat) (handle : State → State) (s : State) :
    transaction m n handle s = s ∨ (∃ a r x b, transaction m n handle s = s.portMoved a r x b) ∨
    transaction m n handle s = handle s := by
  unfold transaction oselFalls oselRises
  (repeat' split) <;> first
    | exact .inl rfl
    | exact .inr (.inr rfl)
    | exact .inr (.inl ⟨s.underway.summary, true, s.underway.risen, s.out.office, rfl⟩)
    | exact .inr (.inl ⟨some (summaryByte s), false, s.underway.risen, s.out.office, rfl⟩)
    | exact .inr (.inl ⟨some s.summaryShown, s.underway.refused, some ⟨s.tc.clock, s.tc.highWater⟩, s.out.office, rfl⟩)
    | exact .inr (.inl ⟨s.underway.summary, false, s.underway.risen, _, rfl⟩)

/-- The end of a transaction is a move of the port. -/
theorem endTransaction_eq (b : List Byte) (s : State) :
    endTransaction b s = s.portMoved none s.underway.refused none b := rfl

/-- Everything an office command is made of: a move of the port, a reply, a denial, the owner's act. -/
theorem officeCommandOf_keeps (P : State → Prop) {c : OfficeCommand} {cls : State → CommandClass} {o : OfficeFrame}
    {owner : Nat → State → Answer} {s : State} (hs : P s) (hport : ∀ a r x b, P (s.portMoved a r x b))
    (hreply : ∀ code a, P a.state → P (placeReply o code a)) (hdeny : ∀ d t, P t → P (recordDenial d t))
    (howner : ∀ arrival t, P t → P (owner arrival t).state) : P (officeCommandOf c cls o owner s) := by
  unfold officeCommandOf
  dsimp only
  rcases transaction_cases o.moment (transactionBytes (officeLength c) o.extra)
    (fun s => judged c (cls s) o owner s.officeArrival
      (endTransaction (summaryAndZeros s (transactionBytes (officeLength c) o.extra)) s)) s with e | ⟨a, r, x, b, e⟩ | e
  · rw [e]; exact hs
  · rw [e]; exact hport a r x b
  · rw [e]
    unfold judged
    split
    · exact hreply _ _ (howner _ _ (hport _ _ _ _))
    · exact hdeny _ _ (hreply _ _ (hport _ _ _ _))

theorem officeCommand_keeps (P : State → Prop) {c : OfficeCommand} {o : OfficeFrame} {owner : Nat → State → Answer}
    {s : State} (hs : P s) (hport : ∀ a r x b, P (s.portMoved a r x b))
    (hreply : ∀ code a, P a.state → P (placeReply o code a)) (hdeny : ∀ d t, P t → P (recordDenial d t))
    (howner : ∀ arrival t, P t → P (owner arrival t).state) : P (officeCommand c o owner s) :=
  officeCommandOf_keeps P hs hport hreply hdeny howner

/-- The state `seen` is the end of the command's transaction. -/
theorem seen_eq (c : OfficeCommand) (o : OfficeFrame) (s : State) :
    seen c o s = endTransaction (summaryAndZeros s (transactionBytes (officeLength c) o.extra)) s := rfl

/-- A command that is handled reaches the Rights Check, its transaction over. -/
theorem transaction_handles {o : OfficeFrame} {n : Nat} {handle : State → State} {s : State} (h : s.handles o) :
    transaction o.moment n handle s = handle s := by
  obtain ⟨hrun, hm⟩ := h
  simp only [State.running, Bool.and_eq_true, Bool.not_eq_true'] at hrun
  rcases hm with ⟨hm, hw⟩ | ⟨hm, hi, hr⟩
  · simp [transaction, hm, hrun.1, hrun.2, hw, State.commandWaits]
  · simp [transaction, hm, hrun.1, hrun.2, hi, hr, State.refuses, State.portBusy]

/-- The moments of a transaction before its handling, while the part works. -/
theorem transaction_oselFalls {n : Nat} {handle : State → State} {s : State} (h : s.pins.powered = true) :
    transaction .oselFalls n handle s = oselFalls s := by
  simp [transaction, h]

theorem transaction_oselRises {n : Nat} {handle : State → State} {s : State} (h : s.pins.powered = true) :
    transaction .oselRises n handle s = oselRises n s := by
  simp [transaction, h]

/-- An admitted command reaches its owner, which meets the state `seen`. -/
theorem officeCommandOf_admitted {c : OfficeCommand} {cls : State → CommandClass} {o : OfficeFrame}
    {owner : Nat → State → Answer} {s : State} (h : s.admits o (cls s)) :
    officeCommandOf c cls o owner s = placeReply o (officeCode c) (owner s.officeArrival (seen c o s)) := by
  obtain ⟨hs, hpass⟩ := h
  have hp : ∀ b, officePasses (endTransaction b s) o (cls s) = true := fun b => by
    cases h : cls s <;> simp_all [officePasses, State.allows]
  simp [officeCommandOf, transaction_handles hs, judged, hp, seen_eq]

theorem officeCommand_admitted {c : OfficeCommand} {o : OfficeFrame} {owner : Nat → State → Answer} {s : State}
    (h : s.admits o (officeClass c)) :
    officeCommand c o owner s = placeReply o (officeCode c) (owner s.officeArrival (seen c o s)) :=
  officeCommandOf_admitted h

/-- A command that is not admitted by the Rights Check is denied. -/
theorem officeCommandOf_denied {c : OfficeCommand} {cls : State → CommandClass} {o : OfficeFrame}
    {owner : Nat → State → Answer} {s : State} (hs : s.handles o) (hfail : officePasses s o (cls s) = false) :
    officeCommandOf c cls o owner s
      = recordDenial ⟨roleOf o, none, .office c, (cls s).group, .deniedRole, none, s.officeArrival⟩
          (replyHeld c o (some .deniedRole) [] (seen c o s)) := by
  have hp : ∀ b, officePasses (endTransaction b s) o (cls s) = false := fun b => by
    cases h : cls s <;> simp_all [officePasses, State.allows]
  simp [officeCommandOf, transaction_handles hs, judged, hp, seen_eq, replyHeld, placeReply, answerRefused]

/-- The arrival of a command is never later than the clock (R44). -/
theorem officeArrival_le (s : State) : s.officeArrival ≤ s.tc.clock := by
  unfold State.officeArrival; split <;> omega

/-- At most one second is counted between a command's arrival and its handling (R176). -/
theorem clock_le_officeArrival (s : State) : s.tc.clock ≤ s.officeArrival + 1 := by
  unfold State.officeArrival; split <;> omega

theorem frameArrival_le (s : State) (n : Fin 9) : s.frameArrival n ≤ s.tc.clock := by
  unfold State.frameArrival; split <;> omega

/-! ## Link frames -/

theorem goodFrameEntry_state_ne (arrival : Nat) (e : NodeEntry) (h : e.state ≠ .isolated) :
    (goodFrameEntry arrival e).state = .present ∨ (goodFrameEntry arrival e).state = .warning := by
  unfold goodFrameEntry
  dsimp only
  split <;> (try split) <;> simp_all

/-- A good frame in a slot that is not ignored leaves the state `heard`. -/
theorem updateNode_goodFrame {n : Fin 9} {s : State} (h : s.listens n = true) :
    updateNode n (goodFrameEntry (s.frameArrival n) (s.node n)) s.slotClosed = heard n s := by
  have hi : (s.node n).state ≠ .isolated := by
    intro hc
    simp [State.listens, hc] at h
  have hst := goodFrameEntry_state_ne (s.frameArrival n) (s.node n) hi
  have hlose : losesBay (s.node n).state (goodFrameEntry (s.frameArrival n) (s.node n)).state = false := by
    rcases hst with h1 | h1 <;> simp [losesBay, h1]
  have hraise : raisesNode (s.node n).state (goodFrameEntry (s.frameArrival n) (s.node n)).state
      = decide ((goodFrameEntry (s.frameArrival n) (s.node n)).state = .warning ∧ (s.node n).state ≠ .warning) := by
    rcases hst with h1 | h1 <;> simp [raisesNode, h1]
    cases (s.node n).state <;> rfl
  unfold updateNode heard
  simp only [node_slotClosed, hlose, hraise]
  split <;> simp

/-- What a good frame can do: nothing, its arrival alone, the end of an ignored slot, its health alone, or its
service. -/
theorem goodFrame_cases (n : Fin 9) (m : SlotMoment) (isIdle : Bool) (serve : Nat → State → State) (s : State) :
    goodFrame n m isIdle serve s = s ∨ goodFrame n m isIdle serve s = s.frameReceived n ∨
    goodFrame n m isIdle serve s = s.slotClosed ∨
    (s.listens n = true ∧ goodFrame n m isIdle serve s = heard n s) ∨
    (s.listens n = true ∧ s.arrivalMode n = .run ∧ (heard n s).queueFree = true ∧
      goodFrame n m isIdle serve s = serve (s.frameArrival n) (frameTaken n s)) := by
  unfold goodFrame
  split
  · split
    · exact .inr (.inl rfl)
    · split
      · rename_i hl
        dsimp only
        rw [updateNode_goodFrame hl]
        split
        · rename_i ht
          simp only [State.takes, Bool.and_eq_true, beq_iff_eq] at ht
          exact .inr (.inr (.inr (.inr ⟨hl, ht.1.1, ht.2, rfl⟩)))
        · exact .inr (.inr (.inr (.inl ⟨hl, rfl⟩)))
      · exact .inr (.inr (.inl rfl))
  · exact .inl rfl

@[simp] theorem heard_queue (n : Fin 9) (s : State) : (heard n s).rlc.queue = s.rlc.queue := by
  unfold heard; dsimp only; split <;> rfl

@[simp] theorem heard_reserved (n : Fin 9) (s : State) : (heard n s).rlc.reserved = s.rlc.reserved := by
  unfold heard; dsimp only; split <;> rfl

@[simp] theorem heard_mc (n : Fin 9) (s : State) : (heard n s).mc = s.mc := by
  unfold heard; dsimp only; split <;> rfl

/-- A frame heard waits no more. -/
@[simp] theorem heard_underway (n : Fin 9) (s : State) :
    (heard n s).underway = { s.underway with frame := none } := by
  unfold heard; dsimp only; split <;> rfl

/-- A frame that is served meets the state `frameTaken`. -/
theorem goodFrame_served {n : Fin 9} {m : SlotMoment} {serve : Nat → State → State} {s : State}
    (h : s.servesFrame n m) : goodFrame n m false serve s = serve (s.frameArrival n) (frameTaken n s) := by
  obtain ⟨hm, hrun, hl, hmode, hroom⟩ := h
  subst hm
  have ht : (heard n s).takes (s.arrivalMode n) false = true := by
    simp [State.takes, State.queueFree, hmode, hroom]
  simp [goodFrame, hrun, hl, updateNode_goodFrame, ht, frameTaken, takeFrame]

/-- A frame that is not taken leaves its health and nothing else (R168). -/
theorem goodFrame_notTaken {n : Fin 9} {isIdle : Bool} {serve : Nat → State → State} {s : State}
    (hrun : s.running = true) (hl : s.listens n = true)
    (h : s.arrivalMode n ≠ .run ∨ isIdle = true ∨ ¬ s.rlc.queue.length + s.rlc.reserved < 16) :
    goodFrame n .slotEnd isIdle serve s = heard n s := by
  have ht : (heard n s).takes (s.arrivalMode n) isIdle = false := by
    rcases h with h | h | h <;> simp [State.takes, State.queueFree, h]
  simp [goodFrame, hrun, hl, updateNode_goodFrame, ht]

/-- A frame's arrival is stamped and nothing else happens (R44). -/
theorem goodFrame_received {n : Fin 9} {isIdle : Bool} {serve : Nat → State → State} {s : State}
    (hrun : s.running = true) : goodFrame n .received isIdle serve s = s.frameReceived n := by
  simp [goodFrame, hrun]

end Sys2Proof.Machine
end

