-- ==== Sys2Proof/Laws/Changes.lean ====
section
/-! SUPPORT. Everything a step can do, said once: the single changes of State, each with the conditions under which its
owner makes it, and for each owner that its answer is a run of such changes. -/

namespace Sys2Proof.Machine

/-- One change of the records. `late` is what a step may assume to start a compartment outside RUN: that a frame which
arrived in RUN meets a LOADING folder after the mode has left RUN, which `State.SlotOk` rules out. -/
inductive Change (late : Prop) (s : State) : State → Prop where
  -- the office port, the rights, power
  | portMoved (a : Option Byte) (r : Bool) (x : Option Taking) (b : List Byte) : Change late s (s.portMoved a r x b)
  | cleared : Change late s s.nothingUnderway
  | discarded : Change late s s.discardUnderway
  | replyPlaced (r : Option OfficeReply) : Change late s { s with op := { s.op with reply := r } }
  | flagsWritten (x : MemberSet 8) : Change late s { s with op := { s.op with flags := x } }
  | enablesWritten (x : MemberSet 8) : Change late s { s with op := { s.op with enables := x } }
  | denied (d : Denial) (h : d.role ≠ .supervisor) : Change late s (recordDenial d s)
  | pinsWritten (p : Pins) : Change late s { s with pins := p }
  | rightsWritten (x : MemberSet 10) : Change late s { s with rc := { s.rc with allowed := x } }
  -- accounts
  | accountOpened (i : Fin 64) (card : BitVec 32) (p : ProfileLetter) (e : Byte) (x arrival : Nat)
      (free : (s.account i).state = .free) (real : card ≠ 0) (new : s.findCard card.toNat = none)
      (past : arrival ≤ s.tc.clock) :
      Change late s (recompute i ((expiryTest i (s.setAccount i (openedRecord card.toNat p e x arrival))).raiseHighWater arrival))
  | accountEdited (i : Fin 64) (card : BitVec 32) (p : ProfileLetter) (e : Byte) (x : Nat)
      (held : (s.account i).state ≠ .free) (real : card ≠ 0) (new : s.cardElsewhere i card.toNat = false) :
      Change late s (editRecord i card.toNat p e x s)
  | accountMarked (i : Fin 64) (st : AccountState) (al : MemberSet 5) (u : Bool) (held : (s.account i).state ≠ .free)
      (kept : st ≠ .free) : Change late s (s.setAccount i { s.account i with state := st, alarms := al, unread := u })
  | accountResumed (i : Fin 64) (held : (s.account i).state ≠ .free) :
      Change late s (expiryTest i (s.setAccount i { s.account i with state := .active }))
  | accountClosed (i : Fin 64) (held : (s.account i).state ≠ .free) (idle : (s.account i).liveFolder = none) :
      Change late s ((s.removeAlarm i).setAccount i Account.free)
  | statusChanged (i : Fin 64) (new : Status) (time : Nat) : Change late s (changeStatus i new time s).state
  -- profiles, clock
  | profileWritten (p : ProfileLetter) (l : Limits) (range : l.inRange = true) :
      Change late s (recomputeProfile p (s.setProfile p ⟨l, l, false⟩))
  | profilePending (p : ProfileLetter) (l : Limits) (range : l.inRange = true) :
      Change late s (s.setProfile p ⟨(s.profile p).active, l, true⟩)
  | profileCancelled (p : ProfileLetter) : Change late s (s.setProfile p ⟨(s.profile p).active, (s.profile p).active, false⟩)
  | timeSet (value offset : Nat) (range : value ≤ maxClock) (day : offset ≤ 1439) (forward : s.tc.clock ≤ value) :
      Change late s (timeJump s.minute (placeClock value offset s))
  | timeAdjusted (n : Nat) (range : s.tc.clock + n ≤ maxClock) : Change late s (timeJump s.minute (s.setClock (s.tc.clock + n)))
  | counted : Change late s (s.setClock (countedClock s.tc.clock))
  | boundaryOwed (b : Bool) : Change late s (s.setMinuteDue b)
  | boundaryTaken : Change late s (takeMinuteBoundary s)
  | dayChecked : Change late s (dayCheck s)
  -- folders
  | folderCreated (f : Fin 16) (tanker : Nat) (p : Fin 64) (q : Option (Fin 64)) (drive duty : Nat)
      (capacities : List Nat) (arrival : Nat)
      (free : (s.folder f).state = .free) (quiet : (s.folder f).owesStop = false)
      (crew : q ≠ some p) (length : 1 ≤ capacities.length ∧ capacities.length ≤ 6)
      (active : ∀ i ∈ (openedFolder tanker p q drive duty capacities arrival).drivers, (s.account i).state = .active)
      (open_ : ∀ i ∈ (openedFolder tanker p q drive duty capacities arrival).drivers, (s.account i).liveFolder = none) :
      Change late s (openFolder f (openedFolder tanker p q drive duty capacities arrival) s)
  | folderPlanned (f : Fin 16) (k : Nat) (c : Compartment) (capacity : Nat) (substance : Option Nat) (declared : Nat)
      (held : (s.folder f).compartments[k]? = some c) (state : (s.folder f).state = .opened) :
      Change late s (writePlan f k c capacity substance declared s)
  | papersWritten (f : Fin 16) (lines : List PapersLine) (state : (s.folder f).state = .opened) :
      Change late s (s.setFolder f { s.folder f with papers := lines })
  | tripWritten (f : Fin 16) (drive duty : Nat) (state : (s.folder f).state ≠ .free) :
      Change late s (s.setFolder f { s.folder f with plannedDrive := drive, plannedDuty := duty })
  | folderSubmitted (f : Fin 16) (placards : MemberSet 16) (state : (s.folder f).state = .opened) :
      Change late s (s.setFolder f { s.folder f with state := .papered, placards := placards })
  | folderReopened (f : Fin 16) (state : (s.folder f).state = .papered) :
      Change late s (s.setFolder f { s.folder f with state := .opened, placards := 0 })
  | bayAssigned (f : Fin 16) (b : Fin 8) (state : (s.folder f).state = .papered) (free : s.bayBusy f b = false) :
      Change late s (s.setFolder f { s.folder f with state := .assigned, bay := some b })
  | bayUnassigned (f : Fin 16) (state : (s.folder f).state = .assigned) :
      Change late s (s.setFolder f { s.folder f with state := .papered, bay := none })
  | amended (f : Fin 16) (k : Nat) (c : Compartment) (declared : Nat)
      (held : (s.folder f).compartments[k]? = some c) (state : (s.folder f).state = .amendWait ∨ (s.folder f).state = .held) :
      Change late s (evaluate f ((s.folder f).setCompartment k (reconcile s.mr { c with declared := declared })) s)
  | overridden (f : Fin 16) (state : (s.folder f).state = .amendWait ∨ (s.folder f).state = .held) :
      Change late s (setAttention .folder (s.setFolder f
        { s.folder f with state := .ready, overrideMark := true, holdReasons := ⟨false, false⟩, unread := true }))
  | voided (f : Fin 16) (arrival : Nat) (past : arrival ≤ s.tc.clock)
      (held : (s.folder f).state ≠ .free ∧ (s.folder f).state ≠ .released)
      (room : (s.folder f).hasProduct = true → s.logFull = false) :
      Change late s (let freed := freeFolder f (voidStops f (voidLogged arrival f s))
        if (s.folder f).state = .loading then leftLoading freed else freed)
  | finished (f : Fin 16) (cs : List Compartment) (state : (s.folder f).state = .loading)
      (length : cs.length = (s.folder f).compartments.length) (still : ∀ c ∈ cs, c.inProgress = false) :
      Change late s (endOfLoading f { s.folder f with compartments := cs } s)
  | folderRead (f : Fin 16) (state : (s.folder f).state ≠ .free) :
      Change late s (s.setFolder f { s.folder f with unread := false })
  -- tables
  | substanceWritten (e : Substance) (ok : e.Ok) (room : (s.substance e.code).isNone = true → s.gcu.substances.length < 128) :
      Change late s (s.setSubstances (putSubstance e s.gcu.substances))
  | substanceCleared (code : Nat) : Change late s (s.setSubstances (dropSubstance code s.gcu.substances))
  | pairWritten (g h : Fin 16) (r : Ruling) (free : ¬(g = h ∨ g = 0 ∨ h = 0)) :
      Change late s (returnAffected g h (s.setCells g h r))
  | thresholdWritten (k : Fin 15) (n : Nat) (range : n ≤ 60000) : Change late s (s.setThreshold k n)
  | meteringWritten (m : MeterSettings) (range : m.inRange = true) (config : s.mc.mode = .config) : Change late s { s with mr := m }
  | logAcknowledged (n : Nat) : Change late s { s with dl := { s.dl with held := acknowledged n s.dl.held } }
  | levelWritten (n : Nat) (range : 1 ≤ n ∧ n ≤ 1024) : Change late s { s with dl := { s.dl with level := n } }
  | linkWritten (period limit : Nat) (enrolled : MemberSet 9) (p : 100 ≤ period ∧ period ≤ 2000 ∧ period % 50 = 0)
      (l : 2 ≤ limit ∧ limit ≤ 64) : Change late s (writeLink period limit enrolled s)
  | nodeReadmitted (n : Fin 9) : Change late s (s.setNode n NodeEntry.start)
  -- modes and starts
  | modeRequested (m : Mode) (t : State) (h : requestedMode m s = some t) : Change late s t
  | coldStarted (cause : StartCause) : Change late s (coldStart cause s)
  | warmStarted (cause : StartCause) : Change late s (warmStart cause s)
  -- the link
  | frameReceived (n : Fin 9) : Change late s (s.frameReceived n)
  | slotClosed : Change late s s.slotClosed
  | goodHeard (n : Fin 9) (h : s.listens n = true) : Change late s (heard n s)
  | damagedHeard (n : Fin 9) (h : s.listens n = true) : Change late s (updateNode n (damagedFrameEntry (s.node n)) s)
  | silenceHeard (n : Fin 9) (h : s.listens n = true) :
      Change late s (updateNode n (emptySlotEntry s.rlc.silenceLimit (s.node n)) s)
  | placeReserved (n : Fin 9) (room : s.rlc.queue.length + s.rlc.reserved < 16) :
      Change late s (takeFrame n s)
  | replyJoined (r : ReplyRecord) (place : s.rlc.reserved ≠ 0) :
      Change late s { s with rlc := { s.rlc with queue := joinQueue r s.rlc.queue, reserved := s.rlc.reserved - 1 } }
  | placeGivenUp (place : s.rlc.reserved ≠ 0) : Change late s { s with rlc := { s.rlc with reserved := s.rlc.reserved - 1 } }
  | loadingBegun (f : Fin 16) (state : (s.folder f).state = .assigned) (steady : s.mc.pendingTarget = none)
      (closed : s.underway.frame = none) :
      Change late s (s.setFolder f
        { s.folder f with state := .loading, compartments := (s.folder f).compartments.map planned })
  | compartmentStarted (f : Fin 16) (k : Nat) (c : Compartment) (held : (s.folder f).compartments[k]? = some c)
      (state : (s.folder f).state = .loading) (run : s.mc.mode = .run ∨ late) (waits : c.loading = .planned)
      (arms : (s.folder f).running < s.mr.arms) : Change late s (s.setCompartment f k { c with loading := .permitted })
  | compartmentReported (f : Fin 16) (k : Nat) (c d : Compartment) (held : (s.folder f).compartments[k]? = some c)
      (state : (s.folder f).state = .loading) (runs : c.inProgress = true)
      (plan : d.capacity = c.capacity ∧ d.substance = c.substance ∧ d.declared = c.declared) (grows : c.metered ≤ d.metered) :
      Change late s (s.setCompartment f k d)
  | released (f : Fin 16) (arrival : Nat) (past : arrival ≤ s.tc.clock) (state : (s.folder f).state = .ready)
      (room : s.logFull = false) : Change late s (grantRelease f arrival s)
  | releaseRefused (f : Fin 16) (reasons : MemberSet 32) (state : (s.folder f).state = .ready) :
      Change late s (s.setFolder f { s.folder f with lastRefusal := reasons })
  | left (f : Fin 16) (state : (s.folder f).state = .released) : Change late s (freeFolder f s)
  | beaconSent : Change late s (sendBeacon s)

/-- A run of changes. -/
inductive Changes (late : Prop) : State → State → Prop where
  | refl (s : State) : Changes late s s
  | tail {s t u : State} : Changes late s t → Change late t u → Changes late s u

theorem Changes.one {late : Prop} {s t : State} (h : Change late s t) : Changes late s t := .tail (.refl s) h

theorem Changes.trans {late : Prop} {s t u : State} (h : Changes late s t) (k : Changes late t u) : Changes late s u := by
  induction k with
  | refl => exact h
  | tail _ c ih => exact .tail ih c

/-- What every single change keeps, a run of changes keeps. -/
theorem Changes.keeps {late : Prop} {P : State → Prop} (step : ∀ s t, P s → Change late s t → P t) {s t : State}
    (h : Changes late s t) (hs : P s) :
    P t := by
  induction h with
  | refl => exact hs
  | tail _ c ih => exact step _ _ ih c

end Sys2Proof.Machine
end

