-- ==== Sys2Proof/Laws/Completion.lean ====
section
/-! SUPPORT. What an admitted command's owner and a served frame's owner meet: the fields and readings of the states
`seen`, `heard` and `frameTaken`; and from an owner's answer to the command's outcome. -/

namespace Sys2Proof.Machine

variable (s : State)

/-! ## The state an office command's owner meets -/

@[simp] theorem seen_tc (c : OfficeCommand) (o : OfficeFrame) : (seen c o s).tc = s.tc := rfl
@[simp] theorem seen_accounts (c : OfficeCommand) (o : OfficeFrame) : (seen c o s).accounts = s.accounts := rfl
@[simp] theorem seen_hu (c : OfficeCommand) (o : OfficeFrame) : (seen c o s).hu = s.hu := rfl
@[simp] theorem seen_folders (c : OfficeCommand) (o : OfficeFrame) : (seen c o s).folders = s.folders := rfl
@[simp] theorem seen_gcu (c : OfficeCommand) (o : OfficeFrame) : (seen c o s).gcu = s.gcu := rfl
@[simp] theorem seen_mr (c : OfficeCommand) (o : OfficeFrame) : (seen c o s).mr = s.mr := rfl
@[simp] theorem seen_dl (c : OfficeCommand) (o : OfficeFrame) : (seen c o s).dl = s.dl := rfl
@[simp] theorem seen_rc (c : OfficeCommand) (o : OfficeFrame) : (seen c o s).rc = s.rc := rfl
@[simp] theorem seen_rlc (c : OfficeCommand) (o : OfficeFrame) : (seen c o s).rlc = s.rlc := rfl
@[simp] theorem seen_op (c : OfficeCommand) (o : OfficeFrame) : (seen c o s).op = s.op := rfl
@[simp] theorem seen_mc (c : OfficeCommand) (o : OfficeFrame) : (seen c o s).mc = s.mc := rfl
@[simp] theorem seen_pins (c : OfficeCommand) (o : OfficeFrame) : (seen c o s).pins = s.pins := rfl
@[simp] theorem seen_pending (c : OfficeCommand) (o : OfficeFrame) : (seen c o s).pending = s.pending := rfl
@[simp] theorem account_seen (c : OfficeCommand) (o : OfficeFrame) (i : Fin 64) :
    (seen c o s).account i = s.account i := rfl
@[simp] theorem folder_seen (c : OfficeCommand) (o : OfficeFrame) (f : Fin 16) :
    (seen c o s).folder f = s.folder f := rfl
@[simp] theorem profile_seen (c : OfficeCommand) (o : OfficeFrame) (p : ProfileLetter) :
    (seen c o s).profile p = s.profile p := by cases p <;> rfl
@[simp] theorem minute_seen (c : OfficeCommand) (o : OfficeFrame) :
    (seen c o s).minute = s.minute := rfl
@[simp] theorem today_seen (c : OfficeCommand) (o : OfficeFrame) :
    (seen c o s).today = s.today := rfl
@[simp] theorem substance_seen (c : OfficeCommand) (o : OfficeFrame) (code : Nat) :
    (seen c o s).substance code = s.substance code := rfl
@[simp] theorem product_seen (c : OfficeCommand) (o : OfficeFrame) (x : Compartment) :
    (seen c o s).product x = s.product x := rfl
@[simp] theorem fillLimit_seen (c : OfficeCommand) (o : OfficeFrame) (x : Compartment) :
    (seen c o s).fillLimit x = s.fillLimit x := rfl
@[simp] theorem cell_seen (c : OfficeCommand) (o : OfficeFrame) (g h : Fin 16) :
    (seen c o s).cell g h = s.cell g h := rfl
@[simp] theorem threshold_seen (c : OfficeCommand) (o : OfficeFrame) (k : Fin 15) :
    (seen c o s).threshold k = s.threshold k := rfl
@[simp] theorem placardSet_seen (c : OfficeCommand) (o : OfficeFrame) (q : Compartment → Nat) (cs : List Compartment) :
    (seen c o s).placardSet q cs = s.placardSet q cs := rfl
@[simp] theorem findCard_seen (c : OfficeCommand) (o : OfficeFrame) (card : Nat) :
    (seen c o s).findCard card = s.findCard card := rfl
@[simp] theorem folderOfBay_seen (c : OfficeCommand) (o : OfficeFrame) (b : Fin 8) :
    (seen c o s).folderOfBay b = s.folderOfBay b := rfl
@[simp] theorem loadingCount_seen (c : OfficeCommand) (o : OfficeFrame) :
    (seen c o s).loadingCount = s.loadingCount := rfl
@[simp] theorem namedBy_seen (c : OfficeCommand) (o : OfficeFrame) (code : Nat) :
    (seen c o s).namedBy code = s.namedBy code := rfl
@[simp] theorem logFull_seen (c : OfficeCommand) (o : OfficeFrame) :
    (seen c o s).logFull = s.logFull := rfl
@[simp] theorem figures_seen (c : OfficeCommand) (o : OfficeFrame) (i : Fin 64) (t : Nat) :
    (seen c o s).figures i t = s.figures i t := rfl
@[simp] theorem limitsOf_seen (c : OfficeCommand) (o : OfficeFrame) (a : Account) :
    (seen c o s).limitsOf a = s.limitsOf a := rfl
@[simp] theorem allows_seen (c : OfficeCommand) (o : OfficeFrame) (g : OperationGroup) :
    (seen c o s).allows g = s.allows g := rfl
@[simp] theorem running_seen (c : OfficeCommand) (o : OfficeFrame) :
    (seen c o s).running = s.running := rfl
@[simp] theorem dayOfMinute_seen (c : OfficeCommand) (o : OfficeFrame) (m : Nat) :
    (seen c o s).dayOfMinute m = s.dayOfMinute m := rfl
@[simp] theorem owedStops_seen (c : OfficeCommand) (o : OfficeFrame) :
    (seen c o s).owedStops = s.owedStops := rfl
@[simp] theorem freeAccount_seen (c : OfficeCommand) (o : OfficeFrame) :
    (seen c o s).freeAccount = s.freeAccount := rfl
@[simp] theorem nextFolder_seen (c : OfficeCommand) (o : OfficeFrame) :
    (seen c o s).nextFolder = s.nextFolder := rfl
@[simp] theorem cardElsewhere_seen (c : OfficeCommand) (o : OfficeFrame) (i : Fin 64) (card : Nat) :
    (seen c o s).cardElsewhere i card = s.cardElsewhere i card := rfl
@[simp] theorem node_seen (c : OfficeCommand) (o : OfficeFrame) (n : Fin 9) :
    (seen c o s).node n = s.node n := rfl
@[simp] theorem bayBusy_seen (c : OfficeCommand) (o : OfficeFrame) (f : Fin 16) (b : Fin 8) :
    (seen c o s).bayBusy f b = s.bayBusy f b := rfl

theorem hoursTest_seen (c : OfficeCommand) (o : OfficeFrame) (x : Folder) (t : Nat) :
    hoursTest (seen c o s) x t = hoursTest s x t := rfl

theorem planCheck_seen (c : OfficeCommand) (o : OfficeFrame) (x : Folder) (day : Nat) :
    planCheck (seen c o s) x day = planCheck s x day := rfl

/-! ## The states of a good frame -/

@[simp] theorem heard_tc (n : Fin 9) : (heard n s).tc = s.tc := by
  unfold heard; dsimp only; split <;> rfl
@[simp] theorem heard_accounts (n : Fin 9) : (heard n s).accounts = s.accounts := by
  unfold heard; dsimp only; split <;> rfl
@[simp] theorem heard_hu (n : Fin 9) : (heard n s).hu = s.hu := by
  unfold heard; dsimp only; split <;> rfl
@[simp] theorem heard_folders (n : Fin 9) : (heard n s).folders = s.folders := by
  unfold heard; dsimp only; split <;> rfl
@[simp] theorem heard_gcu (n : Fin 9) : (heard n s).gcu = s.gcu := by
  unfold heard; dsimp only; split <;> rfl
@[simp] theorem heard_mr (n : Fin 9) : (heard n s).mr = s.mr := by
  unfold heard; dsimp only; split <;> rfl
@[simp] theorem heard_dl (n : Fin 9) : (heard n s).dl = s.dl := by
  unfold heard; dsimp only; split <;> rfl
@[simp] theorem heard_rc (n : Fin 9) : (heard n s).rc = s.rc := by
  unfold heard; dsimp only; split <;> rfl
@[simp] theorem heard_pins (n : Fin 9) : (heard n s).pins = s.pins := by
  unfold heard; dsimp only; split <;> rfl
@[simp] theorem heard_out (n : Fin 9) : (heard n s).out = s.out := by
  unfold heard; dsimp only; split <;> rfl
@[simp] theorem heard_pending (n : Fin 9) : (heard n s).pending = s.pending := by
  unfold heard; dsimp only; split <;> rfl
@[simp] theorem account_heard (n : Fin 9) (i : Fin 64) :
    (heard n s).account i = s.account i := by
  unfold heard; dsimp only; split <;> rfl
@[simp] theorem folder_heard (n : Fin 9) (f : Fin 16) :
    (heard n s).folder f = s.folder f := by
  unfold heard; dsimp only; split <;> rfl
@[simp] theorem profile_heard (n : Fin 9) (p : ProfileLetter) :
    (heard n s).profile p = s.profile p := by
  cases p <;> (unfold heard; dsimp only; split <;> rfl)
@[simp] theorem minute_heard (n : Fin 9) :
    (heard n s).minute = s.minute := by
  unfold heard; dsimp only; split <;> rfl
@[simp] theorem today_heard (n : Fin 9) :
    (heard n s).today = s.today := by
  unfold heard; dsimp only; split <;> rfl
@[simp] theorem substance_heard (n : Fin 9) (code : Nat) :
    (heard n s).substance code = s.substance code := by
  unfold heard; dsimp only; split <;> rfl
@[simp] theorem product_heard (n : Fin 9) (x : Compartment) :
    (heard n s).product x = s.product x := by
  unfold heard; dsimp only; split <;> rfl
@[simp] theorem fillLimit_heard (n : Fin 9) (x : Compartment) :
    (heard n s).fillLimit x = s.fillLimit x := by
  unfold heard; dsimp only; split <;> rfl
@[simp] theorem cell_heard (n : Fin 9) (g h : Fin 16) :
    (heard n s).cell g h = s.cell g h := by
  unfold heard; dsimp only; split <;> rfl
@[simp] theorem threshold_heard (n : Fin 9) (k : Fin 15) :
    (heard n s).threshold k = s.threshold k := by
  unfold heard; dsimp only; split <;> rfl
@[simp] theorem placardSet_heard (n : Fin 9) (q : Compartment → Nat) (cs : List Compartment) :
    (heard n s).placardSet q cs = s.placardSet q cs := by
  unfold heard; dsimp only; split <;> rfl
@[simp] theorem findCard_heard (n : Fin 9) (card : Nat) :
    (heard n s).findCard card = s.findCard card := by
  unfold heard; dsimp only; split <;> rfl
@[simp] theorem folderOfBay_heard (n : Fin 9) (b : Fin 8) :
    (heard n s).folderOfBay b = s.folderOfBay b := by
  unfold heard; dsimp only; split <;> rfl
@[simp] theorem loadingCount_heard (n : Fin 9) :
    (heard n s).loadingCount = s.loadingCount := by
  unfold heard; dsimp only; split <;> rfl
@[simp] theorem namedBy_heard (n : Fin 9) (code : Nat) :
    (heard n s).namedBy code = s.namedBy code := by
  unfold heard; dsimp only; split <;> rfl
@[simp] theorem logFull_heard (n : Fin 9) :
    (heard n s).logFull = s.logFull := by
  unfold heard; dsimp only; split <;> rfl
@[simp] theorem figures_heard (n : Fin 9) (i : Fin 64) (t : Nat) :
    (heard n s).figures i t = s.figures i t := by
  unfold heard; dsimp only; split <;> rfl
@[simp] theorem limitsOf_heard (n : Fin 9) (a : Account) :
    (heard n s).limitsOf a = s.limitsOf a := by
  unfold heard; dsimp only; split <;> rfl
@[simp] theorem allows_heard (n : Fin 9) (g : OperationGroup) :
    (heard n s).allows g = s.allows g := by
  unfold heard; dsimp only; split <;> rfl
@[simp] theorem running_heard (n : Fin 9) :
    (heard n s).running = s.running := by
  unfold heard; dsimp only; split <;> rfl
@[simp] theorem dayOfMinute_heard (n : Fin 9) (m : Nat) :
    (heard n s).dayOfMinute m = s.dayOfMinute m := by
  unfold heard; dsimp only; split <;> rfl
@[simp] theorem owedStops_heard (n : Fin 9) :
    (heard n s).owedStops = s.owedStops := by
  unfold heard; dsimp only; split <;> rfl
@[simp] theorem freeAccount_heard (n : Fin 9) :
    (heard n s).freeAccount = s.freeAccount := by
  unfold heard; dsimp only; split <;> rfl
@[simp] theorem nextFolder_heard (n : Fin 9) :
    (heard n s).nextFolder = s.nextFolder := by
  unfold heard; dsimp only; split <;> rfl
@[simp] theorem cardElsewhere_heard (n : Fin 9) (i : Fin 64) (card : Nat) :
    (heard n s).cardElsewhere i card = s.cardElsewhere i card := by
  unfold heard; dsimp only; split <;> rfl

@[simp] theorem frameTaken_tc (n : Fin 9) : (frameTaken n s).tc = s.tc := by
  unfold frameTaken heard; dsimp only; split <;> rfl
@[simp] theorem frameTaken_accounts (n : Fin 9) : (frameTaken n s).accounts = s.accounts := by
  unfold frameTaken heard; dsimp only; split <;> rfl
@[simp] theorem frameTaken_hu (n : Fin 9) : (frameTaken n s).hu = s.hu := by
  unfold frameTaken heard; dsimp only; split <;> rfl
@[simp] theorem frameTaken_folders (n : Fin 9) : (frameTaken n s).folders = s.folders := by
  unfold frameTaken heard; dsimp only; split <;> rfl
@[simp] theorem frameTaken_gcu (n : Fin 9) : (frameTaken n s).gcu = s.gcu := by
  unfold frameTaken heard; dsimp only; split <;> rfl
@[simp] theorem frameTaken_mr (n : Fin 9) : (frameTaken n s).mr = s.mr := by
  unfold frameTaken heard; dsimp only; split <;> rfl
@[simp] theorem frameTaken_dl (n : Fin 9) : (frameTaken n s).dl = s.dl := by
  unfold frameTaken heard; dsimp only; split <;> rfl
@[simp] theorem frameTaken_rc (n : Fin 9) : (frameTaken n s).rc = s.rc := by
  unfold frameTaken heard; dsimp only; split <;> rfl
@[simp] theorem frameTaken_mc (n : Fin 9) : (frameTaken n s).mc = s.mc := by
  unfold frameTaken heard; dsimp only; split <;> rfl
@[simp] theorem frameTaken_pins (n : Fin 9) : (frameTaken n s).pins = s.pins := by
  unfold frameTaken heard; dsimp only; split <;> rfl
@[simp] theorem frameTaken_out (n : Fin 9) : (frameTaken n s).out = s.out := by
  unfold frameTaken heard; dsimp only; split <;> rfl
@[simp] theorem frameTaken_pending (n : Fin 9) : (frameTaken n s).pending = s.pending := by
  unfold frameTaken heard; dsimp only; split <;> rfl
@[simp] theorem account_frameTaken (n : Fin 9) (i : Fin 64) :
    (frameTaken n s).account i = s.account i := by
  unfold frameTaken heard; dsimp only; split <;> rfl
@[simp] theorem folder_frameTaken (n : Fin 9) (f : Fin 16) :
    (frameTaken n s).folder f = s.folder f := by
  unfold frameTaken heard; dsimp only; split <;> rfl
@[simp] theorem profile_frameTaken (n : Fin 9) (p : ProfileLetter) :
    (frameTaken n s).profile p = s.profile p := by
  cases p <;> (unfold frameTaken heard; dsimp only; split <;> rfl)
@[simp] theorem minute_frameTaken (n : Fin 9) :
    (frameTaken n s).minute = s.minute := by
  unfold frameTaken heard; dsimp only; split <;> rfl
@[simp] theorem today_frameTaken (n : Fin 9) :
    (frameTaken n s).today = s.today := by
  unfold frameTaken heard; dsimp only; split <;> rfl
@[simp] theorem substance_frameTaken (n : Fin 9) (code : Nat) :
    (frameTaken n s).substance code = s.substance code := by
  unfold frameTaken heard; dsimp only; split <;> rfl
@[simp] theorem product_frameTaken (n : Fin 9) (x : Compartment) :
    (frameTaken n s).product x = s.product x := by
  unfold frameTaken heard; dsimp only; split <;> rfl
@[simp] theorem fillLimit_frameTaken (n : Fin 9) (x : Compartment) :
    (frameTaken n s).fillLimit x = s.fillLimit x := by
  unfold frameTaken heard; dsimp only; split <;> rfl
@[simp] theorem cell_frameTaken (n : Fin 9) (g h : Fin 16) :
    (frameTaken n s).cell g h = s.cell g h := by
  unfold frameTaken heard; dsimp only; split <;> rfl
@[simp] theorem threshold_frameTaken (n : Fin 9) (k : Fin 15) :
    (frameTaken n s).threshold k = s.threshold k := by
  unfold frameTaken heard; dsimp only; split <;> rfl
@[simp] theorem placardSet_frameTaken (n : Fin 9) (q : Compartment → Nat) (cs : List Compartment) :
    (frameTaken n s).placardSet q cs = s.placardSet q cs := by
  unfold frameTaken heard; dsimp only; split <;> rfl
@[simp] theorem findCard_frameTaken (n : Fin 9) (card : Nat) :
    (frameTaken n s).findCard card = s.findCard card := by
  unfold frameTaken heard; dsimp only; split <;> rfl
@[simp] theorem folderOfBay_frameTaken (n : Fin 9) (b : Fin 8) :
    (frameTaken n s).folderOfBay b = s.folderOfBay b := by
  unfold frameTaken heard; dsimp only; split <;> rfl
@[simp] theorem loadingCount_frameTaken (n : Fin 9) :
    (frameTaken n s).loadingCount = s.loadingCount := by
  unfold frameTaken heard; dsimp only; split <;> rfl
@[simp] theorem namedBy_frameTaken (n : Fin 9) (code : Nat) :
    (frameTaken n s).namedBy code = s.namedBy code := by
  unfold frameTaken heard; dsimp only; split <;> rfl
@[simp] theorem logFull_frameTaken (n : Fin 9) :
    (frameTaken n s).logFull = s.logFull := by
  unfold frameTaken heard; dsimp only; split <;> rfl
@[simp] theorem figures_frameTaken (n : Fin 9) (i : Fin 64) (t : Nat) :
    (frameTaken n s).figures i t = s.figures i t := by
  unfold frameTaken heard; dsimp only; split <;> rfl
@[simp] theorem limitsOf_frameTaken (n : Fin 9) (a : Account) :
    (frameTaken n s).limitsOf a = s.limitsOf a := by
  unfold frameTaken heard; dsimp only; split <;> rfl
@[simp] theorem allows_frameTaken (n : Fin 9) (g : OperationGroup) :
    (frameTaken n s).allows g = s.allows g := by
  unfold frameTaken heard; dsimp only; split <;> rfl
@[simp] theorem running_frameTaken (n : Fin 9) :
    (frameTaken n s).running = s.running := by
  unfold frameTaken heard; dsimp only; split <;> rfl
@[simp] theorem dayOfMinute_frameTaken (n : Fin 9) (m : Nat) :
    (frameTaken n s).dayOfMinute m = s.dayOfMinute m := by
  unfold frameTaken heard; dsimp only; split <;> rfl
@[simp] theorem owedStops_frameTaken (n : Fin 9) :
    (frameTaken n s).owedStops = s.owedStops := by
  unfold frameTaken heard; dsimp only; split <;> rfl
@[simp] theorem freeAccount_frameTaken (n : Fin 9) :
    (frameTaken n s).freeAccount = s.freeAccount := by
  unfold frameTaken heard; dsimp only; split <;> rfl
@[simp] theorem nextFolder_frameTaken (n : Fin 9) :
    (frameTaken n s).nextFolder = s.nextFolder := by
  unfold frameTaken heard; dsimp only; split <;> rfl
@[simp] theorem cardElsewhere_frameTaken (n : Fin 9) (i : Fin 64) (card : Nat) :
    (frameTaken n s).cardElsewhere i card = s.cardElsewhere i card := by
  unfold frameTaken heard; dsimp only; split <;> rfl

theorem releaseReasons_frameTaken (n : Fin 9) (x : Folder) (confirmed : MemberSet 16) (t : Nat) :
    releaseReasons (frameTaken n s) x confirmed t = releaseReasons s x confirmed t := by
  unfold frameTaken heard; dsimp only; split <;> rfl

theorem hoursTest_frameTaken (n : Fin 9) (x : Folder) (t : Nat) :
    hoursTest (frameTaken n s) x t = hoursTest s x t := by
  unfold frameTaken heard; dsimp only; split <;> rfl

/-! ## From an owner's answer to the outcome -/

variable {s}

/-- An admitted command whose owner takes it. -/
theorem officeCommand_ok {c : OfficeCommand} {o : OfficeFrame} {owner : Nat → State → Answer} {data : List Byte}
    {t : State} (h : s.admits o (officeClass c)) (ho : owner (s.officeArrival) (seen c o s) = answerOk t data) :
    (.next (officeCommand c o owner s) : Host.Outcome State Fault Refusal) = answersOk c o data t := by
  rw [officeCommand_admitted h, ho]; rfl

/-- An admitted command whose owner refuses it. -/
theorem officeCommand_refused {c : OfficeCommand} {o : OfficeFrame} {owner : Nat → State → Answer} {r : Reason}
    (h : s.admits o (officeClass c)) (ho : owner (s.officeArrival) (seen c o s) = answerRefused (seen c o s) r) :
    (.next (officeCommand c o owner s) : Host.Outcome State Fault Refusal) = refusesWith c o r s := by
  rw [officeCommand_admitted h, ho]; rfl

/-- A served request whose owner replies. -/
theorem requestFrame_replies {k : MessageKind} {l : LinkFrame} {serve : Nat → State → LinkAnswer} {body : ReplyBody}
    {argument : Argument} {t : State} (h : s.servesFrame l.node l.moment) (hk : (k == .idle) = false)
    (ho : serve (s.frameArrival l.node) (frameTaken l.node s) = replied t body argument) :
    (.next (requestFrame k l serve s) : Host.Outcome State Fault Refusal) = repliesWith k l body argument t := by
  unfold requestFrame
  rw [hk, goodFrame_served h, ho]; rfl

/-- A served request whose owner makes no reply. -/
theorem requestFrame_silent {k : MessageKind} {l : LinkFrame} {serve : Nat → State → LinkAnswer} {t : State}
    (h : s.servesFrame l.node l.moment) (hk : (k == .idle) = false)
    (ho : serve (s.frameArrival l.node) (frameTaken l.node s) = silent t) :
    (.next (requestFrame k l serve s) : Host.Outcome State Fault Refusal) = servesSilently t := by
  unfold requestFrame
  rw [hk, goodFrame_served h, ho]; rfl

/-- A request on a compartment of the bay's own LOADING folder reaches its act. -/
theorem onCompartment_loading {compartment : Byte} {act : Compartment → State → LinkAnswer} {f : Fin 16} {c : Compartment}
    (hc : (s.folder f).compartments[compartment.toNat]? = some c) (hl : (s.folder f).state = .loading) :
    onCompartment compartment act f s = act c s := by
  simp [onCompartment, hc, hl]

/-- A request with a window from the bay that holds the named folder reaches its owner. -/
theorem windowRequest_owner {k : MessageKind} {l : LinkFrame} {number : Byte}
    {owner : Nat → Fin 8 → Fin 16 → State → LinkAnswer} {b : Fin 8} {f : Fin 16} (arrival : Nat) {t : State}
    (hb : bayOfNode l.node = some b) (hf : t.folderOfBay b = some f) (hn : number.toNat = f.val) :
    bayRights k l.node arrival (fun b s => windowed k l.node number arrival (owner arrival) b s) t
      = owner arrival b f t := by
  simp [bayRights, hb, windowed, hf, hn]

/-- The lowest index that satisfies a test. -/
theorem lowest_eq_some {n : Nat} {p : Fin n → Bool} {i : Fin n} :
    lowest n p = some i ↔ p i = true ∧ ∀ j, j < i → p j = false := by
  unfold lowest
  rw [List.find?_eq_some_iff_getElem]
  constructor
  · rintro ⟨hp, k, hk, he, hlt⟩
    have hki : k = i.val := by simpa using congrArg Fin.val he
    refine ⟨hp, fun j hj => ?_⟩
    have := hlt j.val (by omega)
    simpa using this
  · rintro ⟨hp, hlt⟩
    exact ⟨hp, i.val, by simp, by simp, fun j hj => by simpa using hlt ⟨j, by omega⟩ hj⟩

end Sys2Proof.Machine
end

