-- ==== Sys2Proof/Laws/Owners.lean ====
section
/-! SUPPORT. For each owner of an office command, that its answer is a run of changes, and that a refusal changes
nothing. -/

namespace Sys2Proof.Machine

variable {late : Prop}

/-! ## Indices and searches -/

theorem indexOf_some {n : Nat} {b : Byte} {i : Fin n} : indexOf n b = some i ↔ b.toNat = i.val := by
  unfold indexOf
  split
  · rename_i h
    constructor
    · intro he; cases he; rfl
    · intro he; exact congrArg some (Fin.ext he)
  · rename_i h
    constructor
    · intro he; cases he
    · intro he; exact absurd (he ▸ i.isLt) h

theorem indexOf_none {n : Nat} {b : Byte} : indexOf n b = none ↔ n ≤ b.toNat := by
  unfold indexOf
  split <;> simp <;> omega

theorem lowest_some {n : Nat} {p : Fin n → Bool} {i : Fin n} (h : lowest n p = some i) : p i = true :=
  List.find?_some h

theorem lowest_none {n : Nat} {p : Fin n → Bool} : lowest n p = none ↔ ∀ i, p i = false := by
  simp [lowest, List.find?_eq_none]

theorem lowest_isSome {n : Nat} {p : Fin n → Bool} : (lowest n p).isSome = false ↔ ∀ i, p i = false := by
  rw [← lowest_none]; cases lowest n p <;> simp

theorem freeAccount_free {s : State} {i : Fin 64} (h : s.freeAccount = some i) : (s.account i).state = .free := by
  have := lowest_some h
  simpa using this

/-! ## Wrappers -/

theorem onAccount_changes {index : Byte} {act : Fin 64 → State → Answer} {s : State}
    (h : ∀ i, (s.account i).state ≠ .free → Changes late s (act i s).state) : Changes late s (onAccount index act s).state := by
  unfold onAccount
  split
  · exact .refl s
  · split
    · exact .refl s
    · exact h _ (by assumption)

theorem onFolder_changes {folder : Byte} {act : Fin 16 → State → Answer} {s : State}
    (h : ∀ f, Changes late s (act f s).state) : Changes late s (onFolder folder act s).state := by
  unfold onFolder
  split
  · exact .refl s
  · exact h _

theorem onFolderIn_changes {folder : Byte} {states : List FolderState} {act : Fin 16 → State → Answer} {s : State}
    (h : ∀ f, (s.folder f).state ∈ states → Changes late s (act f s).state) :
    Changes late s (onFolderIn folder states act s).state := by
  refine onFolder_changes fun f => ?_
  split
  · rename_i hc
    exact h f (List.contains_iff_mem.mp hc)
  · exact .refl s

theorem inConfig_changes {act : State → Answer} {s : State} (h : s.mc.mode = .config → Changes late s (act s).state) :
    Changes late s (inConfig act s).state := by
  unfold inConfig
  split
  · exact h ‹_›
  · exact .refl s

theorem officeCommandOf_changes {c : OfficeCommand} {cls : State → CommandClass} {o : OfficeFrame}
    {owner : Nat → State → Answer} {s : State}
    (h : ∀ arrival t, arrival ≤ t.tc.clock → Changes late t (owner arrival t).state) :
    Changes late s (officeCommandOf c cls o owner s) := by
  have hend : ∀ b, Changes late s (endTransaction b s) := fun b => .one (.portMoved _ _ _ b)
  unfold officeCommandOf
  dsimp only
  rcases transaction_cases o.moment (transactionBytes (officeLength c) o.extra)
    (fun s => judged c (cls s) o owner s.officeArrival
      (endTransaction (summaryAndZeros s (transactionBytes (officeLength c) o.extra)) s)) s with e | ⟨a, r, x, b, e⟩ | e
  · rw [e]; exact .refl s
  · rw [e]; exact .one (.portMoved a r x b)
  · rw [e]
    unfold judged
    split
    · have act := h s.officeArrival (endTransaction (summaryAndZeros s (transactionBytes (officeLength c) o.extra)) s)
        (officeArrival_le s)
      exact (hend _).trans (act.trans (.one (.replyPlaced _)))
    · rename_i hp
      refine (hend (summaryAndZeros s (transactionBytes (officeLength c) o.extra))).trans
        ((Changes.one (.replyPlaced _)).trans (.one (.denied _ ?_)))
      intro hr
      apply hp
      have hk : o.skey = true := by
        simp only [roleOf] at hr
        split at hr
        · assumption
        · cases hr
      unfold officePasses
      split <;> simp [hk]

theorem officeCommand_changes {c : OfficeCommand} {o : OfficeFrame} {owner : Nat → State → Answer} {s : State}
    (h : ∀ arrival t, arrival ≤ t.tc.clock → Changes late t (owner arrival t).state) :
    Changes late s (officeCommand c o owner s) := officeCommandOf_changes h

/-! ## Accounts -/

theorem openAccountAnswer_changes {s : State} {arrival : Nat} (card : BitVec 32) (p e : Byte) (x : BitVec 16)
    (past : arrival ≤ s.tc.clock) : Changes late s (openAccountAnswer card p e x arrival s).state := by
  unfold openAccountAnswer
  (repeat' split) <;> first | exact .refl s | skip
  rename_i hr hc _ i hi
  exact .one (.accountOpened i card _ e _ arrival (freeAccount_free hi) (by simp_all)
    (by simpa using hc) past)

theorem editAccountAnswer_changes {s : State} (arrival : Nat) (index : Byte) (card : BitVec 32) (p e : Byte)
    (x : BitVec 16) : Changes late s (editAccountAnswer index card p e x arrival s).state := by
  unfold editAccountAnswer
  (repeat' split) <;> first | exact .refl s | skip
  exact .one (.accountEdited _ card _ e _ (by assumption) (by simp_all) (by simp_all))

theorem accountMarked_of {s : State} {i : Fin 64} {a : Account} (held : (s.account i).state ≠ .free)
    (kept : a.state ≠ .free) (h : a = { s.account i with state := a.state, alarms := a.alarms, unread := a.unread }) :
    Changes late s (s.setAccount i a) := by
  rw [h]; exact .one (.accountMarked i _ _ _ held kept)

theorem suspendAnswer_changes {s : State} {i : Fin 64} (held : (s.account i).state ≠ .free) :
    Changes late s (suspendAnswer i s).state := by
  unfold suspendAnswer
  split
  · exact .refl s
  · exact accountMarked_of held (by simp) rfl

theorem resumeAnswer_changes {s : State} {i : Fin 64} (held : (s.account i).state ≠ .free) :
    Changes late s (resumeAnswer i s).state := by
  unfold resumeAnswer
  split
  · exact .refl s
  · exact .one (.accountResumed i held)

theorem closeAnswer_changes {s : State} {i : Fin 64} (held : (s.account i).state ≠ .free) :
    Changes late s (closeAnswer i s).state := by
  unfold closeAnswer
  split
  · exact .refl s
  · exact .one (.accountClosed i held (by simp_all))

theorem setStatusAnswer_changes {s : State} (arrival : Nat) (index status : Byte) (time : BitVec 32) :
    Changes late s (setStatusAnswer index status time arrival s).state := by
  unfold setStatusAnswer
  split
  · dsimp only
    split <;> exact .one (.statusChanged _ _ _)
  · exact .refl s

theorem clearLateAnswer_changes {s : State} {i : Fin 64} (held : (s.account i).state ≠ .free) :
    Changes late s (clearLateAnswer i s).state := accountMarked_of held held rfl

theorem readAccountAnswer_changes {s : State} {i : Fin 64} (held : (s.account i).state ≠ .free) :
    Changes late s (readAccountAnswer i s).state := accountMarked_of held held rfl

theorem findCardAnswer_state (card : BitVec 32) (arrival : Nat) (s : State) :
    (findCardAnswer card arrival s).state = s := by
  unfold findCardAnswer; (repeat' split) <;> rfl

/-! ## Hours and clock -/

theorem setProfileAnswer_changes {s : State} (arrival : Nat) (letter : Byte) (l : Limits) :
    Changes late s (setProfileAnswer letter l arrival s).state := by
  unfold setProfileAnswer
  (repeat' split) <;> first | exact .refl s | skip
  unfold writeProfile
  dsimp only [answerOk_state]
  split
  · exact .one (.profileWritten _ l (by assumption))
  · exact .one (.profilePending _ l (by assumption))

theorem cancelPendingProfileAnswer_changes {s : State} (arrival : Nat) (letter : Byte) :
    Changes late s (cancelPendingProfileAnswer letter arrival s).state := by
  unfold cancelPendingProfileAnswer
  (repeat' split) <;> first | exact .refl s | exact .one (.profileCancelled _)

theorem readProfileAnswer_state (letter : Byte) (arrival : Nat) (s : State) :
    (readProfileAnswer letter arrival s).state = s := by
  unfold readProfileAnswer; split <;> rfl

theorem readAllowanceAnswer_state (index : Byte) (arrival : Nat) (s : State) :
    (readAllowanceAnswer index arrival s).state = s := by
  unfold readAllowanceAnswer; (repeat' split) <;> rfl

theorem hoursCheckAnswer_state (folder : Byte) (arrival : Nat) (s : State) :
    (hoursCheckAnswer folder arrival s).state = s := by
  unfold hoursCheckAnswer; (repeat' split) <;> rfl

theorem setTimeAnswer_changes {s : State} (arrival value offset : Nat) :
    Changes late s (setTimeAnswer value offset arrival s).state := by
  unfold setTimeAnswer
  (repeat' split) <;> first | exact .refl s | skip
  rename_i _ hr hb
  exact .one (.timeSet value offset (by omega) (by omega) (by omega))

theorem adjustTimeAnswer_changes {s : State} (arrival seconds : Nat) :
    Changes late s (adjustTimeAnswer seconds arrival s).state := by
  unfold adjustTimeAnswer
  split
  · exact .refl s
  · exact .one (.timeAdjusted seconds (by omega))

theorem readAlarmsAnswer_state (position : Byte) (arrival : Nat) (s : State) :
    (readAlarmsAnswer position arrival s).state = s := by
  unfold readAlarmsAnswer; split <;> rfl

/-! ## Folders -/

theorem namedDrivers_crew {primary second : Byte} {p : Fin 64} {q : Option (Fin 64)}
    (h : namedDrivers primary second = some (p, q)) : q ≠ some p := by
  unfold namedDrivers at h
  split at h
  · simp at h; simp [← h.2]
  · split at h
    · cases h
    · rename_i hne
      simp only [Option.some.injEq, Prod.mk.injEq] at h
      obtain ⟨rfl, rfl⟩ := h
      simpa using hne
  · cases h

theorem namedCapacities_length {count : Byte} {slots : Vector (BitVec 16) 6} {l : List Nat}
    (h : namedCapacities count slots = some l) : 1 ≤ l.length ∧ l.length ≤ 6 := by
  unfold namedCapacities at h
  dsimp only at h
  split at h
  · rename_i hc
    simp only [Option.some.injEq] at h
    subst h
    simp only [within, Bool.and_eq_true, decide_eq_true_eq] at hc
    simp only [slotsUsed, List.length_map, List.length_take, Vector.length_toList]
    omega
  · cases h

theorem nextFolder_free {s : State} {f : Fin 16} (h : s.nextFolder = some f) :
    (s.folder f).state = .free ∧ (s.folder f).owesStop = false := by
  have := lowest_some h
  simpa using this

theorem createChecked_changes {s : State} {tanker : Nat} {p : Fin 64} {q : Option (Fin 64)} {drive duty : Nat}
    {capacities : List Nat} {arrival : Nat} (crew : q ≠ some p)
    (length : 1 ≤ capacities.length ∧ capacities.length ≤ 6) :
    Changes late s (createChecked (openedFolder tanker p q drive duty capacities arrival) s).state := by
  unfold createChecked
  (repeat' split) <;> first | exact .refl s | skip
  rename_i h1 h2 h3 _ f hf
  refine .one (.folderCreated f tanker p q drive duty capacities arrival (nextFolder_free hf).1 (nextFolder_free hf).2
    crew length ?_ ?_)
  · intro i hi
    simp only [List.any_eq_true, beq_iff_eq, not_exists, not_and] at h1 h2
    have a1 := h1 i hi
    have a2 := h2 i hi
    cases hst : (s.account i).state <;> simp_all
  · intro i hi
    simp only [List.any_eq_true, not_exists, not_and] at h3
    simpa using h3 i hi

theorem createFolderAnswer_changes {s : State} (tanker : BitVec 32) (primary second : Byte) (drive duty : BitVec 16)
    (count : Byte) (slots : Vector (BitVec 16) 6) (arrival : Nat) :
    Changes late s (createFolderAnswer tanker primary second drive duty count slots arrival s).state := by
  unfold createFolderAnswer
  (repeat' split) <;> first | exact .refl s | skip
  exact createChecked_changes (namedDrivers_crew ‹_›) (namedCapacities_length ‹_›)

theorem setCompartmentAnswer_changes {s : State} (folder compartment : Byte) (capacity substance declared : BitVec 16)
    (arrival : Nat) : Changes late s (setCompartmentAnswer folder compartment capacity substance declared arrival s).state := by
  refine onFolder_changes fun f => ?_
  (repeat' split) <;> first | exact .refl s | skip
  exact .one (.folderPlanned f _ _ _ _ _ ‹_› (by simp_all))

theorem setPapersAnswer_changes {s : State} (folder count : Byte) (slots : Vector (BitVec 16 × Byte) 6) (arrival : Nat) :
    Changes late s (setPapersAnswer folder count slots arrival s).state := by
  refine onFolder_changes fun f => ?_
  dsimp only
  split
  · exact .refl s
  · split
    · exact .refl s
    · rename_i h
      exact .one (.papersWritten f _ (Decidable.not_not.mp h))

theorem setTripAnswer_changes {s : State} (folder : Byte) (drive duty : BitVec 16) (arrival : Nat) :
    Changes late s (setTripAnswer folder drive duty arrival s).state := by
  unfold setTripAnswer
  split
  · exact .refl s
  · refine onFolderIn_changes fun f hf => .one (.tripWritten f _ _ ?_)
    rintro h
    rw [h] at hf
    simp [openToReady] at hf

theorem submitOpen_changes {s : State} (arrival : Nat) {f : Fin 16} (state : (s.folder f).state = .opened) :
    Changes late s (submitOpen arrival f s).state := by
  unfold submitOpen
  dsimp only
  split
  · exact .refl s
  · exact .one (.folderSubmitted f _ state)

theorem assignBayAnswer_changes {s : State} (folder bay : Byte) (arrival : Nat) :
    Changes late s (assignBayAnswer folder bay arrival s).state := by
  unfold assignBayAnswer
  (repeat' split) <;> first | exact .refl s | skip
  exact .one (.bayAssigned _ _ (by simp_all) (by simp_all))

theorem amendAnswer_changes {s : State} (folder compartment : Byte) (declared : BitVec 16) (arrival : Nat) :
    Changes late s (amendAnswer folder compartment declared arrival s).state := by
  refine onFolder_changes fun f => ?_
  (repeat' split) <;> first | exact .refl s | skip
  rename_i hk hb _
  refine .one (.amended f _ _ _ hk ?_)
  simp only [not_or] at hb
  have := hb.1
  have hm := List.contains_iff_mem.mp (Bool.not_eq_false _ ▸ this)
  simpa using hm

theorem overrideWaiting_changes {s : State} {f : Fin 16}
    (state : (s.folder f).state = .amendWait ∨ (s.folder f).state = .held) : Changes late s (overrideWaiting f s).state :=
  .one (.overridden f state)

theorem voidHeld_changes {s : State} {arrival : Nat} {f : Fin 16} (past : arrival ≤ s.tc.clock)
    (held : (s.folder f).state ≠ .free ∧ (s.folder f).state ≠ .released) : Changes late s (voidHeld arrival f s).state := by
  unfold voidHeld
  split
  · exact .refl s
  · rename_i hl
    refine .one (.voided f arrival past held ?_)
    intro hp
    simpa [hp] using hl

theorem inProgress_of_final {st : LoadingState} (h : st ≠ .permitted ∧ st ≠ .flowing ∧ st ≠ .stopped ∧ st ≠ .settled) :
    st.inProgress = false := by
  cases st <;> simp_all [LoadingState.inProgress]

theorem reconcile_loading (m : MeterSettings) (c : Compartment) : (reconcile m c).loading = c.loading := by
  unfold reconcile; split <;> simp_all

theorem closedOut_still {m : MeterSettings} {cs : List Compartment} (h : ∀ c ∈ cs, c.inProgress = false) :
    ∀ c ∈ closedOut m cs, c.inProgress = false := by
  intro c hc
  simp only [closedOut, List.mem_map] at hc
  obtain ⟨d, hd, rfl⟩ := hc
  have := h d hd
  simp only [Compartment.inProgress, reconcile_loading, skipPlanned] at *
  split <;> simp_all [LoadingState.inProgress]

theorem interrupt_still (c : Compartment) : (interrupt c).inProgress = false := by
  unfold interrupt
  split
  · rfl
  · simp_all

theorem finishHeld_changes {s : State} {f : Fin 16} (state : (s.folder f).state = .loading) :
    Changes late s (finishHeld f s).state := by
  refine .one (.finished f _ state (by simp [closedOut]) (closedOut_still ?_))
  intro c hc
  simp only [List.mem_map] at hc
  obtain ⟨d, _, rfl⟩ := hc
  exact interrupt_still d

theorem readFolderAnswer_changes {s : State} (f : Fin 16) : Changes late s (readFolderAnswer f s).state := by
  unfold readFolderAnswer
  split
  · exact .refl s
  · exact .one (.folderRead f (by assumption))

theorem readCompartmentAnswer_state (folder compartment : Byte) (arrival : Nat) (s : State) :
    (readCompartmentAnswer folder compartment arrival s).state = s := by
  unfold readCompartmentAnswer onFolder
  split
  · rfl
  · dsimp only
    split <;> rfl

/-! ## Tables -/

theorem setSubstanceAnswer_changes {s : State} (code : BitVec 16) (group cls : Byte) (fill : BitVec 16) (arrival : Nat) :
    Changes late s (setSubstanceAnswer code group cls fill arrival s).state := by
  refine inConfig_changes fun _ => ?_
  (repeat' split) <;> first | exact .refl s | skip
  rename_i g c _ _ hr
  simp only [not_or, Bool.not_eq_false] at hr
  have hcode : code.toNat ≠ 0 := fun h => hr.1 (BitVec.eq_of_toNat_eq (by simpa using h))
  have hlt := code.isLt
  have hfill := hr.2
  simp only [within, Bool.and_eq_true, decide_eq_true_eq] at hfill
  have ok : (⟨code.toNat, g, c, fill.toNat⟩ : Substance).Ok := ⟨⟨by dsimp only; omega, by dsimp only; omega⟩, hfill⟩
  unfold writeSubstance
  dsimp only
  (repeat' split) <;> first | exact .refl s | skip
  · exact .one (.substanceWritten _ ok (by intro h; simp_all))
  · exact .one (.substanceWritten _ ok (by intro _; omega))

theorem clearSubstanceAnswer_changes {s : State} (code : BitVec 16) (arrival : Nat) :
    Changes late s (clearSubstanceAnswer code arrival s).state := by
  refine inConfig_changes fun _ => ?_
  split
  · exact .refl s
  · split
    · exact .refl s
    · split
      · exact .refl s
      · exact .one (.substanceCleared code.toNat)

theorem readSubstanceAnswer_state (code : BitVec 16) (arrival : Nat) (s : State) :
    (readSubstanceAnswer code arrival s).state = s := by
  unfold readSubstanceAnswer; (repeat' split) <;> rfl

theorem listSubstancesAnswer_state (position : Byte) (arrival : Nat) (s : State) :
    (listSubstancesAnswer position arrival s).state = s := by
  unfold listSubstancesAnswer; split <;> rfl

theorem writePair_changes {s : State} {g h : Fin 16} (r : Ruling) (free : ¬(g = h ∨ g = 0 ∨ h = 0)) :
    Changes late s (writePair g h r s).state := by
  unfold writePair
  split
  · exact .refl s
  · rw [answerOk_state]
    exact .one (Change.pairWritten g h r free)

theorem setMatrixPairAnswer_changes {s : State} (g h ruling : Byte) (arrival : Nat) :
    Changes late s (setMatrixPairAnswer g h ruling arrival s).state := by
  refine inConfig_changes fun _ => ?_
  split
  · split
    · exact .refl s
    · exact writePair_changes _ (by assumption)
  · exact .refl s

theorem readMatrixAnswer_state (g : Byte) (arrival : Nat) (s : State) : (readMatrixAnswer g arrival s).state = s := by
  unfold readMatrixAnswer; split <;> rfl

theorem setThresholdAnswer_changes {s : State} (group : Byte) (quantity : BitVec 16) (arrival : Nat) :
    Changes late s (setThresholdAnswer group quantity arrival s).state := by
  refine inConfig_changes fun _ => ?_
  (repeat' split) <;> first | exact .refl s | skip
  exact .one (.thresholdWritten _ _ (by omega))

theorem setMeteringAnswer_changes {s : State} (m : MeterSettings) (arrival : Nat) :
    Changes late s (setMeteringAnswer m arrival s).state := by
  refine inConfig_changes fun hc => ?_
  (repeat' split) <;> first | exact .refl s | skip
  exact .one (.meteringWritten m (by assumption) hc)

theorem readLogAnswer_state (sequence : BitVec 32) (arrival : Nat) (s : State) :
    (readLogAnswer sequence arrival s).state = s := by
  unfold readLogAnswer; split <;> rfl

theorem ackLogAnswer_changes {s : State} (n arrival : Nat) : Changes late s (ackLogAnswer n arrival s).state := by
  unfold ackLogAnswer
  split
  · exact .refl s
  · exact .one (.logAcknowledged n)

theorem setLogWarningAnswer_changes {s : State} (level : BitVec 16) (arrival : Nat) :
    Changes late s (setLogWarningAnswer level arrival s).state := by
  refine inConfig_changes fun _ => ?_
  split
  · rename_i h
    simp only [within, Bool.and_eq_true, decide_eq_true_eq] at h
    exact .one (.levelWritten _ h)
  · exact .refl s

theorem setRightsAnswer_changes {s : State} (groups : BitVec 16) (value : Byte) (arrival : Nat) :
    Changes late s (setRightsAnswer groups value arrival s).state := by
  unfold setRightsAnswer
  (repeat' split) <;> first | exact .refl s | exact .one (.rightsWritten _)

theorem setLinkAnswer_changes {s : State} (period : BitVec 16) (silence : Byte) (enrolled : BitVec 16) (arrival : Nat) :
    Changes late s (setLinkAnswer period silence enrolled arrival s).state := by
  refine inConfig_changes fun _ => ?_
  (repeat' split) <;> first | exact .refl s | skip
  rename_i hr _
  simp only [not_or, Bool.not_eq_false, within, Bool.and_eq_true, decide_eq_true_eq, ne_eq, Decidable.not_not] at hr
  exact .one (.linkWritten _ _ _ ⟨hr.1.1, hr.1.2, hr.2.1⟩ hr.2.2.1)

theorem readmitNodeAnswer_changes {s : State} (node : Byte) (arrival : Nat) :
    Changes late s (readmitNodeAnswer node arrival s).state := by
  unfold readmitNodeAnswer
  split
  · exact .refl s
  · exact .one (.nodeReadmitted _)

/-! ## Port and modes -/

theorem ackAttentionAnswer_changes {s : State} (flags : BitVec 16) (arrival : Nat) :
    Changes late s (ackAttentionAnswer flags arrival s).state := by
  unfold ackAttentionAnswer
  split
  · exact .one (.flagsWritten _)
  · exact .refl s

theorem setEnablesAnswer_changes {s : State} (mask value : BitVec 16) (arrival : Nat) :
    Changes late s (setEnablesAnswer mask value arrival s).state := by
  unfold setEnablesAnswer
  split
  · exact .one (.enablesWritten _)
  · exact .refl s

theorem requestModeAnswer_changes {s : State} (target : Byte) (arrival : Nat) :
    Changes late s (requestModeAnswer target arrival s).state := by
  unfold requestModeAnswer
  split
  · exact .refl s
  · split
    · exact .refl s
    · exact .one (.modeRequested _ _ (by assumption))

theorem clearAllAnswer_changes {s : State} (arrival : Nat) : Changes late s (clearAllAnswer arrival s).state := by
  unfold clearAllAnswer
  split
  · exact .one (.coldStarted _)
  · exact .refl s

end Sys2Proof.Machine
end

