-- ==== Sys2Proof/Laws/Steps.lean ====
section
/-! SUPPORT. Every command, every frame and every event is a run of the changes of Laws/Changes.lean. -/

namespace Sys2Proof.Machine

variable {late : Prop}

/-! ## What a report keeps of a compartment -/

/-- Plan fields and metered quantity are the same. -/
structure SamePlan (c d : Compartment) : Prop where
  capacity : d.capacity = c.capacity
  substance : d.substance = c.substance
  declared : d.declared = c.declared
  metered : d.metered = c.metered

theorem settleTests_samePlan (m : MeterSettings) (c : Compartment) : SamePlan c (settleTests m c) := by
  unfold settleTests; (repeat' split) <;> exact ⟨rfl, rfl, rfl, rfl⟩

theorem SamePlan.trans {c d e : Compartment} (h : SamePlan c d) (k : SamePlan d e) : SamePlan c e :=
  ⟨k.capacity.trans h.capacity, k.substance.trans h.substance, k.declared.trans h.declared, k.metered.trans h.metered⟩

theorem settleTests_kept {m : MeterSettings} {c d : Compartment} (h1 : d.capacity = c.capacity)
    (h2 : d.substance = c.substance) (h3 : d.declared = c.declared) (h4 : d.metered = c.metered) :
    SamePlan c (settleTests m d) := SamePlan.trans ⟨h1, h2, h3, h4⟩ (settleTests_samePlan m d)

theorem flowingReport_samePlan (c : Compartment) : SamePlan c (flowingReport c) := ⟨rfl, rfl, rfl, rfl⟩

theorem stoppedReport_samePlan (m : MeterSettings) (moved : Nat) (c : Compartment) : SamePlan c (stoppedReport m moved c) := by
  unfold stoppedReport
  split
  · split
    · exact ⟨rfl, rfl, rfl, rfl⟩
    · exact settleTests_kept rfl rfl rfl rfl
  · exact settleTests_kept rfl rfl rfl rfl
  · exact settleTests_kept rfl rfl rfl rfl

theorem stopTest_samePlan (m : MeterSettings) (fill : Option Nat) (bay : Fin 8) (c : Compartment) :
    SamePlan c (stopTest m fill bay c) := by
  unfold stopTest; (repeat' split) <;> exact ⟨rfl, rfl, rfl, rfl⟩

/-- An accepted total keeps the plan and writes metered (R110). -/
theorem takeTotal_plan (m : MeterSettings) (fill : Option Nat) (bay : Fin 8) (arrival total : Nat) (flowing : Bool)
    (c : Compartment) : SamePlan { c with metered := total } (takeTotal m fill bay arrival total flowing c) := by
  unfold takeTotal
  dsimp only
  split
  · exact SamePlan.trans (SamePlan.trans (d := { c with metered := total, lastReport := some arrival })
      ⟨rfl, rfl, rfl, rfl⟩ (flowingReport_samePlan _)) (stopTest_samePlan _ _ _ _)
  · exact SamePlan.trans (SamePlan.trans (d := { c with metered := total, lastReport := some arrival })
      ⟨rfl, rfl, rfl, rfl⟩ (stoppedReport_samePlan _ _ _)) (stopTest_samePlan _ _ _ _)

/-! ## Link requests -/

/-- What a link owner does: changes of the records, the link's own records left alone. -/
structure Serves (late : Prop) (s : State) (a : LinkAnswer) : Prop where
  changes : Changes late s a.state
  link : a.state.rlc = s.rlc

theorem Serves.silentOrDenied {s : State} {r : Option (ReplyBody × Argument)} : Serves late s ⟨s, r⟩ := ⟨.refl s, rfl⟩

theorem settleReply_changes {n : Fin 9} {tag : Byte} {cls : ReplyBody → ReplyClass} {s : State} {a : LinkAnswer}
    (h : Serves late s a) (place : s.rlc.reserved ≠ 0) : Changes late s (settleReply n tag cls a) := by
  refine h.changes.trans (.one ?_)
  have hp : a.state.rlc.reserved ≠ 0 := h.link ▸ place
  unfold settleReply
  split
  · exact .placeGivenUp hp
  · exact .replyJoined _ hp

/-- What a frame being served may rely on: it arrived by now, it arrived in RUN, and its slot is closed. -/
structure Served (late : Prop) (arrival : Nat) (t : State) : Prop where
  past : arrival ≤ t.tc.clock
  run : t.mc.mode = .run ∨ ((∃ f, (t.folder f).state = .loading) → late)
  closed : t.underway.frame = none

/-- A frame that arrived in RUN is served in RUN, or after the mode has left it, where no folder is LOADING unless the
slot's invariant fails. -/
theorem arrivalMode_run {n : Fin 9} {s : State} (h : s.arrivalMode n = .run) :
    s.mc.mode = .run ∨ ((∃ f, (s.folder f).state = .loading) → ¬s.SlotOk) := by
  by_cases hm : s.mc.mode = .run
  · exact .inl hm
  · refine .inr fun ⟨f, hf⟩ hs => ?_
    unfold State.arrivalMode at h
    split at h
    · rename_i a ha
      unfold State.received at ha
      split at ha
      · rename_i b hb
        split at ha
        · cases ha
          exact hs _ hb h hm f hf
        · cases ha
      · cases ha
    · exact hm h

theorem goodFrame_changes {n : Fin 9} {m : SlotMoment} {isIdle : Bool} {serve : Nat → State → State} {s : State}
    (hl : ¬s.SlotOk → late)
    (h : ∀ arrival t, Served late arrival t → t.rlc.reserved ≠ 0 → Changes late t (serve arrival t)) :
    Changes late s (goodFrame n m isIdle serve s) := by
  rcases goodFrame_cases n m isIdle serve s with e | e | e | ⟨hn, e⟩ | ⟨hn, hr, ht, e⟩
  · rw [e]; exact .refl s
  · rw [e]; exact .one (.frameReceived n)
  · rw [e]; exact .one .slotClosed
  · rw [e]; exact .one (.goodHeard n hn)
  · rw [e]
    simp only [State.queueFree, decide_eq_true_eq] at ht
    refine (Changes.one (.goodHeard n hn)).trans ((Changes.one (.placeReserved n ht)).trans ?_)
    have htc : (heard n s).tc = s.tc := by unfold heard; dsimp only; split <;> rfl
    have hf : ∀ f, (heard n s).folder f = s.folder f := by intro f; unfold heard; dsimp only; split <;> rfl
    refine h _ _ ⟨?_, ?_, ?_⟩ ?_
    · simp only [takeFrame_tc, htc]
      exact frameArrival_le s n
    · rcases arrivalMode_run hr with hm | hm
      · exact .inl (by simpa using hm)
      · exact .inr fun ⟨f, hx⟩ => hl (hm ⟨f, by simpa [hf] using hx⟩)
    · simp
    · simp [takeFrame]

theorem requestFrame_changes {k : MessageKind} {l : LinkFrame} {serve : Nat → State → LinkAnswer} {s : State}
    (hl : ¬s.SlotOk → late) (h : ∀ arrival t, Served late arrival t → Serves late t (serve arrival t)) :
    Changes late s (requestFrame k l serve s) :=
  goodFrame_changes hl fun arrival t ha hp => settleReply_changes (h arrival t ha) hp

theorem linkDenial_serves {k : MessageKind} {n : Fin 9} {reason : Reason} {argument : Argument} {named : Option Byte}
    {arrival : Nat} {s : State} : Serves late s (linkDenial k n reason argument named arrival s) := by
  refine ⟨.one (.denied _ ?_), rfl⟩
  simp only [roleOfNode]
  split <;> simp

theorem bayRights_serves {k : MessageKind} {n : Fin 9} {arrival : Nat} {owner : Fin 8 → State → LinkAnswer} {s : State}
    (h : ∀ b, Serves late s (owner b s)) : Serves late s (bayRights k n arrival owner s) := by
  unfold bayRights
  split
  · exact h _
  · exact linkDenial_serves

theorem gateRights_serves {k : MessageKind} {n : Fin 9} {arrival : Nat} {owner : State → LinkAnswer} {s : State}
    (h : Serves late s (owner s)) : Serves late s (gateRights k n arrival owner s) := by
  unfold gateRights
  split
  · exact linkDenial_serves
  · exact h

theorem windowed_serves {k : MessageKind} {n : Fin 9} {number : Byte} {arrival : Nat}
    {owner : Fin 8 → Fin 16 → State → LinkAnswer} {b : Fin 8} {s : State} (h : ∀ f, Serves late s (owner b f s)) :
    Serves late s (windowed k n number arrival owner b s) := by
  unfold windowed
  split
  · exact linkDenial_serves
  · split
    · exact h _
    · exact linkDenial_serves

theorem windowRequest_changes {k : MessageKind} {l : LinkFrame} {number : Byte}
    {owner : Nat → Fin 8 → Fin 16 → State → LinkAnswer} {s : State} (hl : ¬s.SlotOk → late)
    (h : ∀ arrival b f t, Served late arrival t → Serves late t (owner arrival b f t)) :
    Changes late s (windowRequest k l number owner s) :=
  requestFrame_changes hl fun arrival t ha => bayRights_serves fun b => windowed_serves fun f => h arrival b f t ha

theorem gateRequest_changes {k : MessageKind} {l : LinkFrame} {owner : Nat → State → LinkAnswer} {s : State}
    (hl : ¬s.SlotOk → late) (h : ∀ arrival t, Served late arrival t → Serves late t (owner arrival t)) :
    Changes late s (gateRequest k l owner s) :=
  requestFrame_changes hl fun arrival t ha => gateRights_serves (h arrival t ha)

theorem onCompartment_serves {compartment : Byte} {act : Compartment → State → LinkAnswer} {f : Fin 16} {s : State}
    (h : ∀ c, (s.folder f).compartments[compartment.toNat]? = some c → (s.folder f).state = .loading → Serves late s (act c s)) :
    Serves late s (onCompartment compartment act f s) := by
  unfold onCompartment
  split
  · exact .silentOrDenied
  · split
    · exact h _ ‹_› ‹_›
    · exact .silentOrDenied

theorem cardAnswer_serves {s : State} (leftRun : Bool) (tanker number : BitVec 32) (arrival : Nat) (b : Fin 8)
    (closed : s.underway.frame = none) :
    Serves late s (cardAnswer leftRun tanker number arrival b s) := by
  unfold cardAnswer
  split
  · exact .silentOrDenied
  · split
    · exact .silentOrDenied
    · dsimp only
      split
      · exact .silentOrDenied
      · split
        · exact .silentOrDenied
        · split
          · exact .silentOrDenied
          · rename_i hp
            unfold acceptCard
            refine ⟨?_, ?_⟩
            · dsimp only [replied_state]
              split
              · rename_i ha
                refine (Changes.one (.loadingBegun _ ha ?_ closed)).trans (.one (.statusChanged _ _ _))
                exact Option.not_isSome_iff_eq_none.mp fun c => hp ⟨ha, .inl c⟩
              · exact .one (.statusChanged _ _ _)
            · dsimp only [replied_state]
              split <;> simp

theorem startAnswer_serves {s : State} (compartment : Byte) (arrival : Nat) (b : Fin 8) (f : Fin 16)
    (run : s.mc.mode = .run ∨ ((∃ f, (s.folder f).state = .loading) → late)) : Serves late s (startAnswer compartment arrival b f s) := by
  refine onCompartment_serves fun c hc hl => ?_
  unfold startOn
  split
  · exact .silentOrDenied
  · split
    · exact .silentOrDenied
    · split
      · exact .silentOrDenied
      · exact ⟨.one (.compartmentStarted f _ c hc hl (run.imp_right fun h => h ⟨f, hl⟩) (Decidable.not_not.mp ‹_›) (by omega)), rfl⟩

theorem totalAnswer_serves {s : State} (compartment : Byte) (litres : BitVec 16) (flowing : Byte) (arrival : Nat)
    (b : Fin 8) (f : Fin 16) : Serves late s (totalAnswer compartment litres flowing arrival b f s) := by
  unfold totalAnswer
  split
  · exact .silentOrDenied
  · refine onCompartment_serves fun c hc hl => ?_
    unfold totalOn
    split
    · exact .silentOrDenied
    · rename_i hp
      have hp : c.inProgress = true := by simpa using hp
      split
      · exact ⟨.one (.compartmentReported f _ c _ hc hl hp ⟨rfl, rfl, rfl⟩ (Nat.le_refl _)), rfl⟩
      · have hs := takeTotal_plan s.mr (s.fillLimit c) b arrival litres.toNat (by assumption) c
        refine ⟨.one (.compartmentReported f _ c _ hc hl hp ⟨hs.capacity, hs.substance, hs.declared⟩ ?_), rfl⟩
        rw [hs.metered]
        dsimp only
        omega

theorem endedState_inProgress {st st' : LoadingState} (h : endedState st = some st') : st.inProgress = true := by
  cases st <;> simp_all [endedState, LoadingState.inProgress]

theorem endAnswer_serves {s : State} (compartment : Byte) (arrival : Nat) (b : Fin 8) (f : Fin 16) :
    Serves late s (endAnswer compartment arrival b f s) := by
  refine onCompartment_serves fun c hc hl => ?_
  unfold endOn
  split
  · exact .silentOrDenied
  · exact ⟨.one (.compartmentReported f _ c _ hc hl (endedState_inProgress ‹_›) ⟨rfl, rfl, rfl⟩ (Nat.le_refl _)), rfl⟩

theorem doneAnswer_serves {s : State} (arrival : Nat) (b : Fin 8) (f : Fin 16) : Serves late s (doneAnswer arrival b f s) := by
  unfold doneAnswer
  dsimp only
  split
  · exact .silentOrDenied
  · split
    · exact .silentOrDenied
    · rename_i hl hp
      refine ⟨.one (.finished f _ (Decidable.not_not.mp hl) (by simp [closedOut]) (closedOut_still ?_)), ?_⟩
      · simpa using hp
      · simp

theorem entryAnswer_serves {s : State} (number : BitVec 32) (arrival : Nat) : Serves late s (entryAnswer number arrival s) := by
  unfold entryAnswer
  (repeat' split) <;> first | exact .silentOrDenied | exact ⟨.one (.statusChanged _ _ _), by simp⟩

theorem releaseAnswer_serves {s : State} (folder : Byte) (placards : BitVec 16) (arrival : Nat)
    (past : arrival ≤ s.tc.clock) : Serves late s (releaseAnswer folder placards arrival s) := by
  unfold releaseAnswer
  split
  · exact .silentOrDenied
  · split
    · exact .silentOrDenied
    · split
      · exact .silentOrDenied
      · rename_i f _ _ hr
        have hr := Decidable.not_not.mp hr
        unfold releaseReady
        dsimp only
        split
        · rename_i he
          refine ⟨.one (.released f arrival past hr ?_), by simp⟩
          simp only [releaseReasons, List.append_eq_nil_iff] at he
          simpa using he.2
        · exact ⟨.one (.releaseRefused f _ hr), rfl⟩

theorem driversLeave_changes {s : State} (x : Folder) (arrival : Nat) : Changes late s (driversLeave x arrival s) := by
  unfold driversLeave
  dsimp only
  split
  · exact (Changes.one (.statusChanged _ _ _)).trans (.one (.statusChanged _ _ _))
  · exact .one (.statusChanged _ _ _)

theorem exitAnswer_serves {s : State} (folder : Byte) (arrival : Nat) : Serves late s (exitAnswer folder arrival s) := by
  unfold exitAnswer
  split
  · exact .silentOrDenied
  · split
    · exact .silentOrDenied
    · rename_i f _ hr
      refine ⟨(driversLeave_changes _ _).trans (.one (.left f ?_)), by simp⟩
      rw [folder_congr (driversLeave_folders s _ _)]
      exact Decidable.not_not.mp hr

/-! ## Office port events, starts and the clock -/

theorem transaction_changes {m : OfficeMoment} {n : Nat} {handle : State → State} {s : State}
    (h : Changes late s (handle s)) : Changes late s (transaction m n handle s) := by
  rcases transaction_cases m n handle s with e | ⟨a, r, x, b, e⟩ | e
  · rw [e]; exact .refl s
  · rw [e]; exact .one (.portMoved a r x b)
  · rw [e]; exact h

theorem slotEvent_changes {n : Fin 9} {entry : NodeEntry → NodeEntry} {s : State}
    (h : s.listens n = true → Change late s.slotClosed (updateNode n (entry (s.node n)) s.slotClosed)) :
    Changes late s (slotEvent n entry s) := by
  unfold slotEvent
  split
  · split
    · exact (Changes.one .slotClosed).trans (.one (h ‹_›))
    · exact .one .slotClosed
  · exact .refl s

theorem startByPower_changes (kind : StartKind) (s : State) : Changes late s (startByPower kind s) := by
  cases kind
  · exact (Changes.one (.pinsWritten _)).trans (.one (.coldStarted _))
  · exact (Changes.one (.pinsWritten _)).trans (.one (.warmStarted _))

theorem powerOn_changes (kind : StartKind) (s : State) : Changes late s (powerOn kind s) := by
  unfold powerOn
  split
  · exact (Changes.one .cleared).trans (.one (.pinsWritten _))
  · exact (Changes.one .cleared).trans (startByPower_changes kind _)

theorem resetReturns_changes (s : State) : Changes late s (resetReturns s) := by
  unfold resetReturns
  (repeat' split)
  · exact startByPower_changes _ s
  · exact (Changes.one (.pinsWritten _)).trans (.one (.warmStarted _))
  · exact .one (.pinsWritten _)

theorem settleBoundary_changes (s : State) : Changes late s (settleBoundary s) := by
  unfold settleBoundary
  split
  · exact .one .boundaryTaken
  · exact .refl s

theorem enterMinute_changes (s : State) : Changes late s (enterMinute s) := by
  unfold enterMinute
  split
  · exact .one .counted
  · exact .refl s

theorem minuteBoundary_changes (s : State) : Changes late s (minuteBoundary s) := by
  unfold minuteBoundary
  (repeat' split)
  · exact .one .boundaryTaken
  · exact (enterMinute_changes s).trans (.one .boundaryTaken)
  · exact .refl s

/-! ## Every command -/

/-- What a step can do: a run of changes. -/
theorem exec_changes {i : Instr} {s t : State} (h : exec i s = .next t) : Changes (¬s.SlotOk) s t := by
  cases i <;> (simp only [exec] at h; cases h)
  case openAccount => exact officeCommand_changes fun _ _ ha => openAccountAnswer_changes _ _ _ _ ha
  case editAccount => exact officeCommand_changes fun _ _ _ => editAccountAnswer_changes _ _ _ _ _ _
  case suspendAccount => exact officeCommand_changes fun _ _ _ => onAccount_changes fun _ hi => suspendAnswer_changes hi
  case resumeAccount => exact officeCommand_changes fun _ _ _ => onAccount_changes fun _ hi => resumeAnswer_changes hi
  case closeAccount => exact officeCommand_changes fun _ _ _ => onAccount_changes fun _ hi => closeAnswer_changes hi
  case setStatus => exact officeCommand_changes fun _ _ _ => setStatusAnswer_changes _ _ _ _
  case clearLate => exact officeCommand_changes fun _ _ _ => onAccount_changes fun _ hi => clearLateAnswer_changes hi
  case readAccount => exact officeCommand_changes fun _ _ _ => onAccount_changes fun _ hi => readAccountAnswer_changes hi
  case findCard => exact officeCommand_changes fun a t _ => by rw [findCardAnswer_state]; exact .refl t
  case setProfile => exact officeCommand_changes fun _ _ _ => setProfileAnswer_changes _ _ _
  case cancelPendingProfile => exact officeCommand_changes fun _ _ _ => cancelPendingProfileAnswer_changes _ _
  case readProfile => exact officeCommand_changes fun a t _ => by rw [readProfileAnswer_state]; exact .refl t
  case readAllowance => exact officeCommand_changes fun a t _ => by rw [readAllowanceAnswer_state]; exact .refl t
  case hoursCheck => exact officeCommand_changes fun a t _ => by rw [hoursCheckAnswer_state]; exact .refl t
  case setTime => exact officeCommandOf_changes fun _ _ _ => setTimeAnswer_changes _ _ _
  case adjustTime => exact officeCommand_changes fun _ _ _ => adjustTimeAnswer_changes _ _
  case readTime => exact officeCommand_changes fun _ t _ => .refl t
  case readAlarms => exact officeCommand_changes fun a t _ => by rw [readAlarmsAnswer_state]; exact .refl t
  case createFolder => exact officeCommand_changes fun _ _ _ => createFolderAnswer_changes _ _ _ _ _ _ _ _
  case setCompartment => exact officeCommand_changes fun _ _ _ => setCompartmentAnswer_changes _ _ _ _ _ _
  case setPapers => exact officeCommand_changes fun _ _ _ => setPapersAnswer_changes _ _ _ _
  case setTrip => exact officeCommand_changes fun _ _ _ => setTripAnswer_changes _ _ _ _
  case submit =>
    exact officeCommand_changes fun _ _ _ => onFolderIn_changes fun _ hf => submitOpen_changes _ (by simpa using hf)
  case reopen =>
    exact officeCommand_changes fun _ _ _ => onFolderIn_changes fun f hf => .one (.folderReopened f (by simpa using hf))
  case assignBay => exact officeCommand_changes fun _ _ _ => assignBayAnswer_changes _ _ _
  case unassign =>
    exact officeCommand_changes fun _ _ _ => onFolderIn_changes fun f hf => .one (.bayUnassigned f (by simpa using hf))
  case amend => exact officeCommand_changes fun _ _ _ => amendAnswer_changes _ _ _ _
  case overrideFolder =>
    exact officeCommand_changes fun _ _ _ => onFolderIn_changes fun _ hf => overrideWaiting_changes (by simpa using hf)
  case voidFolder =>
    refine officeCommand_changes fun _ _ ha => onFolderIn_changes fun f hf => voidHeld_changes ha ⟨?_, ?_⟩ <;>
      (intro h; rw [h] at hf; simp [openToReady] at hf)
  case finishLoading =>
    exact officeCommand_changes fun _ _ _ => onFolderIn_changes fun _ hf => finishHeld_changes (by simpa using hf)
  case readFolder => exact officeCommand_changes fun _ _ _ => onFolder_changes readFolderAnswer_changes
  case readCompartment => exact officeCommand_changes fun a t _ => by rw [readCompartmentAnswer_state]; exact .refl t
  case nextFlaggedFolder => exact officeCommand_changes fun _ t _ => .refl t
  case setSubstance => exact officeCommand_changes fun _ _ _ => setSubstanceAnswer_changes _ _ _ _ _
  case clearSubstance => exact officeCommand_changes fun _ _ _ => clearSubstanceAnswer_changes _ _
  case readSubstance => exact officeCommand_changes fun a t _ => by rw [readSubstanceAnswer_state]; exact .refl t
  case listSubstances => exact officeCommand_changes fun a t _ => by rw [listSubstancesAnswer_state]; exact .refl t
  case setMatrixPair => exact officeCommand_changes fun _ _ _ => setMatrixPairAnswer_changes _ _ _ _
  case readMatrix => exact officeCommand_changes fun a t _ => by rw [readMatrixAnswer_state]; exact .refl t
  case setThreshold => exact officeCommand_changes fun _ _ _ => setThresholdAnswer_changes _ _ _
  case readThresholds => exact officeCommand_changes fun _ t _ => .refl t
  case setMetering => exact officeCommand_changes fun _ _ _ => setMeteringAnswer_changes _ _
  case readMetering => exact officeCommand_changes fun _ t _ => .refl t
  case readLogOldest => exact officeCommand_changes fun _ t _ => .refl t
  case readLog => exact officeCommand_changes fun a t _ => by rw [readLogAnswer_state]; exact .refl t
  case ackLog => exact officeCommand_changes fun _ _ _ => ackLogAnswer_changes _ _
  case logStatus => exact officeCommand_changes fun _ t _ => .refl t
  case setLogWarning => exact officeCommand_changes fun _ _ _ => setLogWarningAnswer_changes _ _
  case setRights => exact officeCommand_changes fun _ _ _ => setRightsAnswer_changes _ _ _
  case readRights => exact officeCommand_changes fun _ t _ => .refl t
  case readDenials => exact officeCommand_changes fun _ t _ => .refl t
  case setLink => exact officeCommand_changes fun _ _ _ => setLinkAnswer_changes _ _ _ _
  case readmitNode => exact officeCommand_changes fun _ _ _ => readmitNodeAnswer_changes _ _
  case readLink => exact officeCommand_changes fun _ t _ => .refl t
  case readReply => exact transaction_changes (.one (.portMoved _ _ _ _))
  case ackAttention => exact officeCommand_changes fun _ _ _ => ackAttentionAnswer_changes _ _
  case setEnables => exact officeCommand_changes fun _ _ _ => setEnablesAnswer_changes _ _ _
  case readAttention => exact officeCommand_changes fun _ t _ => .refl t
  case nextFlaggedAccount => exact officeCommand_changes fun _ t _ => .refl t
  case requestMode => exact officeCommand_changes fun _ _ _ => requestModeAnswer_changes _ _
  case readMode => exact officeCommand_changes fun _ t _ => .refl t
  case clearAll => exact officeCommand_changes fun _ _ _ => clearAllAnswer_changes _
  case unknownCommandCode =>
    exact transaction_changes ((Changes.one (.portMoved _ _ _ _)).trans (.one (.replyPlaced _)))
  case droppedFrame => exact transaction_changes (.one (.portMoved _ _ _ _))
  case busyTransaction => exact transaction_changes (.one (.portMoved _ _ _ _))
  case card =>
    exact requestFrame_changes id fun _ _ ha => bayRights_serves fun b => cardAnswer_serves _ _ _ _ b ha.closed
  case start => exact windowRequest_changes id fun _ _ _ _ ha => startAnswer_serves _ _ _ _ ha.run
  case total => exact windowRequest_changes id fun _ _ _ _ _ => totalAnswer_serves _ _ _ _ _ _
  case endCompartment => exact windowRequest_changes id fun _ _ _ _ _ => endAnswer_serves _ _ _ _
  case doneLoading => exact windowRequest_changes id fun _ _ _ _ _ => doneAnswer_serves _ _ _
  case entry => exact gateRequest_changes id fun _ _ _ => entryAnswer_serves _ _
  case release => exact gateRequest_changes id fun _ _ ha => releaseAnswer_serves _ _ _ ha.past
  case exit => exact gateRequest_changes id fun _ _ _ => exitAnswer_serves _ _
  case idle => exact requestFrame_changes id fun _ _ _ => .silentOrDenied
  case malformedFrame =>
    exact goodFrame_changes id fun _ _ _ hp => settleReply_changes .silentOrDenied hp
  case damagedFrame => exact slotEvent_changes fun h => .damagedHeard _ h
  case emptySlot => exact slotEvent_changes fun h => .silenceHeard _ h
  case beacon =>
    split
    · exact .one .beaconSent
    · exact .refl s
  case minuteBoundary =>
    split
    · exact minuteBoundary_changes s
    · exact enterMinute_changes s
  case dayBoundary =>
    split
    · exact (settleBoundary_changes s).trans (.one .dayChecked)
    · exact .refl s
  case coldStart => exact powerOn_changes _ s
  case warmStart cause =>
    cases cause
    · exact powerOn_changes _ s
    · exact resetReturns_changes s
  case resetAsserted => exact (Changes.one .discarded).trans (.one (.pinsWritten _))
  case powerFail => exact (Changes.one .cleared).trans (.one (.pinsWritten _))
  case clockSecondCount =>
    split
    · exact (settleBoundary_changes s).trans ((Changes.one .counted).trans (.one (.boundaryOwed _)))
    · exact .one .counted

end Sys2Proof.Machine
end

