-- ==== Sys2Proof/Tests/Slice0.lean ====
section
/-! SUPPORT. Tests: worked values of the spec, one or two small ones a command, the decoding of bytes written out from
the formats, the smoke tests of well-formedness, and for every statement with hypotheses a witness that they can all be
met. -/

namespace Sys2Proof.Tests

set_option Elab.async false

open Sys2Proof Sys2Proof.Machine

/-! ## Helpers -/

/-- The clock second at a time of a day, the day offset being 0 (R45). -/
def secondOf (day hour minute second : Nat) : Nat := ((day - 1) * 1440 + hour * 60 + minute) * 60 + second

/-- The state after a command. -/
def after (i : Instr) (s : State) : State :=
  match exec i s with
  | .next t => t
  | _ => s

/-- The result a command left in the reply buffer; absent is OK. -/
def resultOf (i : Instr) (s : State) : Option (Option Reason) := (after i s).op.reply.map OfficeReply.result

/-- The data a command left in the reply buffer. -/
def dataOf (i : Instr) (s : State) : List Byte := ((after i s).op.reply.map OfficeReply.data).getD []

/-- The last record of the reply queue after a request. -/
def answerOf (i : Instr) (s : State) : Option (ReplyBody × Argument) :=
  (after i s).rlc.queue.getLast?.map (fun r => (r.body, r.argument))

/-- The clock of the rack below: day 100, 12:31:00. -/
def now : Nat := secondOf 100 12 31 0

/-- A supervisor's frame and an office frame, all moments at once; and the clerk's at one moment of its transaction. -/
def boss : OfficeFrame := ⟨0x29, true, .atOnce, 0⟩
def clerk : OfficeFrame := ⟨0x2A, false, .atOnce, 0⟩

def clerkAt (m : OfficeMoment) : OfficeFrame := { clerk with moment := m }

/-- A frame in the slot of a node, at the end of its slot, and at its arrival. -/
def fromNode (n : Fin 9) : LinkFrame := ⟨n, 17, .slotEnd⟩
def arriving (n : Fin 9) : LinkFrame := ⟨n, 17, .received⟩

/-- An ACTIVE driver in DUTY since 12:10:40: the record of 02, "a driver in mid-shift". -/
def midShift : Account :=
  { Account.free with
    state := .active
    card := some 61400072
    endorsements := 0x48
    expiry := 180
    status := .duty
    since := secondOf 100 12 10 40
    nonDriveSince := some (142560 + 730)
    shiftStart := some (142560 + 330)
    shiftDrive := 325
    driveSinceBreak := 70
    buckets := #v[⟨96, 700, 0⟩, ⟨97, 650, 0⟩, ⟨98, 0, 0⟩, ⟨99, 540, 410⟩, ⟨100, 400, 325⟩, ⟨93, 0, 0⟩, ⟨94, 0, 0⟩, ⟨95, 620, 0⟩] }

/-- A loaded compartment. -/
def held (code declared metered : Nat) (loading : LoadingState) (result : Option Result) : Compartment :=
  { Compartment.starting 8000 with
    substance := some code, declared := declared, loading := loading, metered := metered, result := result }

/-- A folder in a state, for one driver. -/
def folderIn (state : FolderState) (primary : Fin 64) (cs : List Compartment) : Folder :=
  { Folder.free cs with state := state, tanker := 40217, primary := primary, plannedDrive := 240, plannedDuty := 300 }

/-- The plan of 05, "a plan through SUBMIT", with the papers of its second SUBMIT. -/
def planned (papers : List PapersLine) : Folder :=
  { folderIn .opened 0
      [{ Compartment.starting 7000 with substance := some 1203, declared := 6500 },
       { Compartment.starting 5000 with substance := some 1993, declared := 4800 },
       Compartment.starting 3000,
       { Compartment.starting 5000 with substance := some 1830, declared := 4500 },
       { Compartment.starting 6000 with substance := some 9001, declared := 5000 }] with papers := papers }

def goodPapers : List PapersLine := [⟨1203, 0x01⟩, ⟨1993, 0x02⟩, ⟨1830, 0x08⟩, ⟨9001, 0x10⟩]

/-- The folders of the rack: one in every state, folder 9 FREE with a STOP still owed. -/
def rackFolder (f : Fin 16) : Folder :=
  match f.val with
  | 0 => planned goodPapers
  | 1 => { folderIn .papered 1 [held 1203 6000 0 .empty none, held 1830 5200 0 .empty none] with placards := 0x0108 }
  | 2 => { folderIn .assigned 2 [held 1203 7600 0 .empty none, Compartment.starting 4000] with bay := some 1 }
  | 3 =>
    { folderIn .loading 3
        [held 1203 7600 0 .planned none, { held 1203 7600 7700 .flowing none with lastReport := some (now - 1) },
         { held 1993 5500 5510 .settled none with settleCount := 3, stoppedReports := 4 },
         held 1203 7600 0 .permitted none, Compartment.starting 4000] with
      second := some 8, bay := some 2 }
  | 4 =>
    { folderIn .amendWait 4 [held 1203 7600 7645 .loaded (some .amend), Compartment.starting 4000,
        held 1993 5500 5510 .loaded (some .matched)] with unread := true }
  | 5 => folderIn .ready 5 [held 1203 6000 6012 .loaded (some .matched), Compartment.starting 100,
      held 1830 5200 5190 .loaded (some .matched)]
  | 6 => { folderIn .released 6 [held 1203 6000 6012 .loaded (some .matched)] with
      second := some 11, releaseTime := some (now - 60) }
  | 7 => { folderIn .loading 10 [held 1203 7600 7645 .loaded none, Compartment.starting 4000,
      held 1993 5500 5510 .loaded none] with bay := some 7 }
  | 9 => Folder.free [{ Compartment.starting 100 with owedStop := some ⟨.voided, 4⟩ }]
  | _ => Folder.free [Compartment.starting 100]

/-- The drivers: account k drives folder k, 8 and 11 are second drivers, 7 is idle, 9 suspended, 10 drives folder 7. -/
def rackAccount (i : Fin 64) : Account :=
  match i.val with
  | 0 => { midShift with liveFolder := some 0 }
  | 1 => { midShift with card := some 101, liveFolder := some 1 }
  | 2 => { midShift with card := some 102, liveFolder := some 2 }
  | 3 => { midShift with card := some 103, liveFolder := some 3 }
  | 4 => { midShift with card := some 104, liveFolder := some 4 }
  | 5 => { midShift with card := some 105, liveFolder := some 5 }
  | 6 => { midShift with card := some 106, liveFolder := some 6 }
  | 7 => { midShift with card := some 107, unread := true, alarms := 0b10000 }
  | 8 => { Account.free with state := .active, card := some 108, profile := .b, liveFolder := some 3 }
  | 9 => { midShift with state := .suspended, card := some 109, expiry := 99 }
  | 10 => { midShift with card := some 110, liveFolder := some 7 }
  | 11 => { Account.free with state := .active, card := some 111, profile := .b, liveFolder := some 6 }
  | _ => Account.free

/-- An entry held in the log. -/
def oldEntry : LogEntry := ⟨4000, .dispatch, now - 600, 3, 40217, some 103, none, 240, 300, some 275, none, 0x0008, []⟩

/-- A rack at work on day 100, 12:31:00: RUN, a rack folder in every state, the tables of 05, four arms a bay. -/
def rack : State :=
  { State.reset with
    tc := ⟨now, now, true, 0, 100, false⟩
    accounts := tabulate 64 rackAccount
    folders := tabulate 16 rackFolder
    gcu :=
      { State.reset.gcu with
        substances := [⟨1203, 3, 3, 970⟩, ⟨1830, 8, 6, 950⟩, ⟨1993, 3, 3, 980⟩, ⟨9001, 0, 0, 1000⟩]
        cells := (State.reset.gcu.cells.set (cellIndex 3 8) .apart).set (cellIndex 8 3) .apart
        thresholds := (State.reset.gcu.thresholds.set 2 1000).set 7 5000 }
    mr := { State.reset.mr with arms := 4 }
    dl := ⟨[oldEntry], 4001, 768⟩
    op := ⟨none, 0, 0xFF⟩
    mc := ⟨.run, none, ⟨.warm, .power⟩⟩ }

/-- The rack unpowered with RESET low, with a mode change pending, with no folder, and in CONFIG. -/
def resetHeld : State := { rack with pins := ⟨false, true, none⟩ }
def leaving : State := { rack with mc := { rack.mc with pendingTarget := some .config } }
def quiet : State := { rack with folders := State.reset.folders }
def inOffice : State := { rack with mc := { rack.mc with mode := .config } }

/-! ## Well-formedness: an ill-formed command for each check -/

theorem test_wf_refuses_a_known_code_as_unknown : (Instr.unknownCommandCode boss (officeCode .submit) 1).wf = false := by
  decide

theorem test_wf_refuses_a_complete_frame_as_dropped : (Instr.droppedFrame [0x01, 0x02, 0x00] 0).wf = false := by decide

theorem test_wf_refuses_a_form_of_a_kind_as_malformed : (Instr.malformedFrame 0 .slotEnd [0x00, 0x05]).wf = false := by decide

theorem test_wf_takes_a_command : (Instr.submit clerk 0).wf = true ∧ (Instr.malformedFrame 0 .slotEnd [0x09]).wf = true := by
  decide

/-! ## Bytes of the ports -/

/-- CRC-16 with generator 0x1021 and start 0xFFFF over "123456789" is 0x29B1: the published check value (R161). -/
theorem test_check_word :
    checkWord [0x31, 0x32, 0x33, 0x34, 0x35, 0x36, 0x37, 0x38, 0x39] = 0x29B1#16 := by decide +kernel

theorem test_decode_open_account :
    decodeTransaction true .atOnce [0x10, 0x29, 0x08, 0x03, 0xA8, 0xE5, 0x48, 0x01, 0x48, 0x01, 0xD1] 0
      = .openAccount boss 61400392 1 0x48 465 := by decide +kernel

theorem test_decode_set_time :
    decodeTransaction true .atOnce [0x28, 0x29, 0x06, 0x00, 0x00, 0x0E, 0x10, 0x01, 0x68, 0x00] 3
      = .setTime ⟨0x29, true, .atOnce, 1⟩ 3600 360 := by decide +kernel

theorem test_decode_set_papers :
    decodeTransaction false .atOnce
      [0x32, 0x2A, 0x14, 0x06, 0x02, 0x04, 0xB3, 0x01, 0x07, 0xC9, 0x02, 0, 0, 0, 0, 0, 0, 0, 0, 0, 0, 0, 0] 0
      = .setPapers clerk 6 2 #v[(1203, 1), (1993, 2), (0, 0), (0, 0), (0, 0), (0, 0)] := by decide +kernel

theorem test_decode_amend : decodeTransaction false .atOnce [0x38, 0x2A, 0x04, 0x05, 0x00, 0x1D, 0xDD] 0
    = .amend clerk 5 0 7645 := by decide +kernel

theorem test_decode_set_matrix_pair : decodeTransaction true .atOnce [0x4C, 0x29, 0x03, 8, 3, 2] 0
    = .setMatrixPair boss 8 3 2 := by decide +kernel

theorem test_decode_ack_log : decodeTransaction false .atOnce [0x5A, 0x2A, 0x04, 0x00, 0x00, 0x0D, 0xAC] 0
    = .ackLog clerk 3500 := by decide +kernel

theorem test_decode_set_rights : decodeTransaction true .atOnce [0x60, 0x29, 0x03, 0x00, 0x40, 0x01] 0
    = .setRights boss 0x40 1 := by decide +kernel

theorem test_decode_set_enables : decodeTransaction false .atOnce [0x72, 0x2A, 0x04, 0x00, 0x20, 0x00, 0x20] 0
    = .setEnables clerk 0x20 0x20 := by decide +kernel

theorem test_decode_request_mode : decodeTransaction false .atOnce [0x78, 0x2A, 0x01, 0x02] 0 = .requestMode clerk 2 := by
  decide

/-- A length that is not the code's names no command (R177); a length byte above 64 completes the frame (R175). -/
theorem test_decode_wrong_length :
    decodeTransaction false .atOnce [0x78, 0x2A, 0x02, 0x02, 0x00] 0 = .unknownCommandCode clerk 0x78 2 ∧
    decodeTransaction false .atOnce [0x78, 0x2A, 65] 0 = .unknownCommandCode clerk 0x78 65 := by decide +kernel

/-- READ ACCOUNT cut off in its one argument byte is a dropped frame (10, "attention through a busy minute"). -/
theorem test_decode_cut_off : decodeTransaction false .atOnce [0x17, 43, 0x01] 4 = .droppedFrame [0x17, 43, 0x01] 4 := by
  decide +kernel

theorem test_decode_start : decodeSlot 2 .slotEnd (.bytes [0x02, 33, 5, 2, 0x07, 0xE9] true) = .start ⟨2, 33, .slotEnd⟩ 5 2 := by
  decide +kernel

theorem test_decode_release :
    decodeSlot 8 .slotEnd (.bytes [0x07, 12, 12, 0x01, 0x08, 0xFE, 0xB2] true) = .release ⟨8, 12, .slotEnd⟩ 12 0x0108 := by decide +kernel

theorem test_decode_card :
    decodeSlot 1 .slotEnd (.bytes [0x01, 17, 0x00, 0x00, 0x9D, 0x19, 0x00, 0x00, 0x00, 0x66, 0x16, 0x00] true)
      = .card (fromNode 1) 40217 102 := by decide +kernel

theorem test_decode_total :
    decodeSlot 4 .slotEnd (.bytes [0x03, 51, 7, 0, 0x04, 0xB0, 1, 0x7D, 0x18] true) = .total ⟨4, 51, .slotEnd⟩ 7 0 1200 1 := by decide +kernel

/-- One bit of the check word wrong, or the frame cut off, makes it damaged; no reception is an empty slot (R161). -/
theorem test_decode_damaged :
    decodeSlot 0 .slotEnd (.bytes [0x00, 0x05, 0x4D, 0xAA] true) = .idle ⟨0, 5, .slotEnd⟩ ∧
    decodeSlot 0 .slotEnd (.bytes [0x00, 0x05, 0x4D, 0xAB] true) = .damagedFrame 0 ∧
    decodeSlot 0 .slotEnd (.bytes [0x00, 0x05, 0x4D, 0xAA] false) = .damagedFrame 0 ∧
    decodeSlot 0 .slotEnd .nothing = .emptySlot 0 := by decide +kernel

/-! ## Accounts (01) -/

/-- The lowest FREE record is opened; an expiry before today raises EXPIRED at once (R5, R19). -/
theorem test_open_account : dataOf (.openAccount boss 500 0 0x08 99) rack = [12] ∧
    ((after (.openAccount boss 500 0 0x08 99) rack).account 12).hasAlarm .expired = true := by decide +kernel

theorem test_open_account_card_in_use : resultOf (.openAccount boss 102 0 0 465) rack = some (some .cardInUse) := by
  decide +kernel

/-- An expiry moved to day 465 for a card kept; another card while a folder is live is refused (R6). -/
theorem test_edit_account : ((after (.editAccount boss 5 105 0 0x48 465) rack).account 5).expiry = 465 ∧
    resultOf (.editAccount boss 5 700 0 0x48 465) rack = some (some .inUse) := by decide +kernel

theorem test_suspend_account : ((after (.suspendAccount boss 7) rack).account 7).state = .suspended ∧
    resultOf (.suspendAccount boss 9) rack = some (some .badState) := by decide +kernel

theorem test_resume_account : ((after (.resumeAccount boss 9) rack).account 9).state = .active ∧
    ((after (.resumeAccount boss 9) rack).account 9).hasAlarm .expired = true := by decide +kernel

theorem test_close_account : (after (.closeAccount boss 7) rack).account 7 = Account.free ∧
    resultOf (.closeAccount boss 0) rack = some (some .inUse) := by decide +kernel

/-- The three rows of 01, "late and future times": FUTURE; clamped with LATE; then REST at the clamped time, the
non-drive run kept. -/
theorem test_set_status_future :
    resultOf (.setStatus boss 0 1 (BitVec.ofNat 32 (secondOf 100 12 40 0))) rack = some (some .future) ∧
    ((after (.setStatus boss 0 1 (BitVec.ofNat 32 (secondOf 100 12 5 0))) rack).account 0).hasAlarm .late = true := by
  decide +kernel

theorem test_set_status_late :
    let a := (after (.setStatus boss 0 0 (BitVec.ofNat 32 (secondOf 100 12 8 0))) rack).account 0
    a.status = .rest ∧ a.since = secondOf 100 12 10 40 ∧ a.nonDriveSince = some (142560 + 730) := by decide +kernel

/-- The gate ENTRY of 01, "a split shift across a day boundary": a rest run of 630 closes the shift, a new one opens. -/
theorem test_shift_rules_leaving_rest :
    let a : Account := { midShift with
      status := .rest, since := secondOf 99 19 0 0, nonDriveSince := some (98 * 1440 + 1140)
      shiftStart := some (98 * 1440 + 490), shiftDrive := 410, driveSinceBreak := 120 }
    let t := changedRecord 0 .resetA .duty (secondOf 100 5 30 15) a
    t.shiftStart = some (142560 + 330) ∧ t.shiftDrive = 0 ∧ t.driveSinceBreak = 0 ∧
      t.nonDriveSince = some (98 * 1440 + 1140) ∧ t.buckets = a.buckets := by decide +kernel

/-- The crediting of the same sequence across midnight: 50 minutes into day 100, 85 into bucket 5, restamped. -/
theorem test_crediting_across_midnight :
    let b := creditBuckets 0 (142560 + 1390) (142560 + 1440 + 85) true midShift.buckets
    b[4] = ⟨100, 450, 375⟩ ∧ b[5] = ⟨101, 85, 85⟩ ∧ b[3] = ⟨99, 540, 410⟩ := by decide +kernel

theorem test_clear_late : ((after (.clearLate boss 7) rack).account 7).alarms = 0 ∧
    ((after (.clearLate boss 7) rack).account 7).unread = true := by decide +kernel

theorem test_read_account : ((after (.readAccount clerk 7) rack).account 7).unread = false ∧
    (dataOf (.readAccount clerk 7) rack).length = 76 := by decide +kernel

theorem test_find_card : dataOf (.findCard clerk 109) rack = [9, 2] ∧
    resultOf (.findCard clerk 999) rack = some (some .unknownDriver) := by decide +kernel

theorem test_next_flagged_account : dataOf (.nextFlaggedAccount clerk) rack = [7] ∧
    dataOf (.nextFlaggedAccount clerk) State.reset = [0xFF] := by decide +kernel

/-! ## Hours (02) -/

/-- In RUN only the pending copy is written (R35); in CONFIG both are (R34). -/
theorem test_set_profile :
    let edit := Instr.setProfile boss 0 540 840 270 30 600 3600 45
    ((after edit rack).profile .a).active.dMax = 600 ∧ ((after edit rack).profile .a).pendingValid = true ∧
    ((after edit inOffice).profile .a).active.dMax = 540 := by decide +kernel

theorem test_cancel_pending_profile :
    resultOf (.cancelPendingProfile boss 0) rack = some (some .badState) ∧
    ((after (.cancelPendingProfile boss 0) (after (.setProfile boss 0 540 840 270 30 600 3600 45) rack)).profile .a).pendingValid
      = false := by decide +kernel

/-- Profile B's reset values (R32), as they travel. -/
theorem test_read_profile : (dataOf (.readProfile clerk 1) rack).take 15
    = [0x02, 0x94, 0x03, 0x84, 0x01, 0x2C, 0x00, 0x1E, 0x02, 0x1C, 0x0F, 0x3C, 0x00, 0x1E, 0x00] := by decide +kernel

/-- The figures of 02, "a driver in mid-shift", at minute 770 of day 100. -/
theorem test_figures_in_mid_shift :
    let g := figuresOf 0 .resetA (142560 + 770) midShift
    g.a1 = 275 ∧ g.a2 = 400 ∧ g.a3 = 270 ∧ g.a4 = 650 ∧ g.cycleDuty = 2950 ∧ g.shiftAllowance = 275 ∧
      g.runAllowance = 270 ∧ g.cycleRoom = 650 ∧ g.lazyBreak = true ∧ g.lazyRest = false := by decide +kernel

/-- The second driver of 02, "a team at the lazy rest": short of it at 07:20, rested at 07:40. -/
theorem test_figures_at_the_lazy_rest :
    let a : Account := { midShift with
      profile := .b, status := .rest, since := secondOf 99 22 40 0, nonDriveSince := some (98 * 1440 + 1360)
      shiftStart := some (98 * 1440 + 840), shiftDrive := 480, driveSinceBreak := 150
      buckets := #v[⟨96, 700, 0⟩, ⟨97, 650, 0⟩, ⟨98, 0, 0⟩, ⟨99, 540, 410⟩, ⟨92, 400, 0⟩, ⟨93, 590, 0⟩, ⟨94, 0, 0⟩, ⟨95, 620, 0⟩] }
    let early := figuresOf 0 .resetB (142560 + 440) a
    let late := figuresOf 0 .resetB (142560 + 460) a
    early.a1 = 180 ∧ early.a2 = -140 ∧ early.a3 = 300 ∧ early.a4 = 800 ∧ early.shiftAllowance = 0 ∧ early.cycleRoom = 800 ∧
      early.lazyRest = false ∧ late.a1 = 660 ∧ late.a2 = 900 ∧ late.shiftAllowance = 660 ∧ late.lazyRest = true := by
  decide +kernel

theorem test_read_allowance : (dataOf (.readAllowance clerk 0) rack).take 7 = bytes4 (142560 + 751) ++ bytes2 100 ++ [0] ∧
    resultOf (.readAllowance clerk 63) rack = some (some .unknownDriver) := by decide +kernel

/-- At 12:31 the plan of 240 and 300 passes for account 0: no reason bit. -/
theorem test_hours_check : ((dataOf (.hoursCheck clerk 0) rack).drop 4).take 4 = [0, 0, 0, 0] ∧
    resultOf (.hoursCheck clerk 15) rack = some (some .badState) := by decide +kernel

/-! ## The clock (03) -/

theorem test_set_time : resultOf (.setTime boss (BitVec.ofNat 32 (now - 1)) 0) inOffice = some (some .timeBack) ∧
    resultOf (.setTime boss (BitVec.ofNat 32 now) 0) rack = some (some .mode) := by decide +kernel

/-- A day offset that lowers today is the supervisor's alone (R150): an office SET TIME is denied. -/
theorem test_set_time_lowering_today :
    resultOf (.setTime clerk (BitVec.ofNat 32 now) 1439) inOffice = some (some .deniedRole) ∧
    dataOf (.setTime boss (BitVec.ofNat 32 now) 1439) inOffice = bytes4 now ++ bytes2 99 := by decide +kernel

/-- The four accounts of 03, "a forward jump", on day 1: 3 and 7 and 5 in DRIVE, 12 in DUTY. -/
def jumping : State :=
  let driving := fun (card start : Nat) =>
    { Account.free with
      state := .active, card := some card, status := .drive, since := start * 60, nonDriveSince := none
      shiftStart := some start }
  { State.reset with
    tc := ⟨1010 * 60 + 20, 960 * 60, true, 0, 1, false⟩
    accounts := tabulate 64 (fun i => match i.val with
      | 3 => driving 3 775
      | 7 => driving 7 790
      | 12 => { driving 12 200 with status := .duty, nonDriveSince := some 200 }
      | 5 => driving 5 960
      | _ => Account.free)
    hu := { State.reset.hu with alarms := [⟨3, .warn, 1015⟩, ⟨7, .warn, 1030⟩, ⟨12, .window, 1040⟩, ⟨5, .warn, 1200⟩] } }

/-- The firing pass and the recompute of that jump (R51, R52, R57). -/
theorem test_adjust_time :
    let t := after (.adjustTime boss 3000) jumping
    t.hu.alarms = [⟨5, .warn, 1200⟩] ∧ (t.account 3).alarms = 0b00011 ∧ (t.account 7).alarms = 0b00011 ∧
      (t.account 12).alarms = 0b00100 ∧ (t.account 5).alarms = 0 := by decide +kernel

theorem test_recompute_places_the_listed_entries : (recomputeAll jumping).hu.alarms = jumping.hu.alarms := by
  decide +kernel

theorem test_read_time : dataOf (.readTime clerk) State.reset = [0, 0, 0, 0, 0, 0, 0, 0, 0, 1, 0, 0, 0, 0, 0, 0, 0] := by
  decide +kernel

/-- READ TIME gives what stood when it was taken (R53): the second counted between its rise and its handling, and the status
written in that second, do not show. -/
theorem test_read_time_when_taken :
    let s := after (.entry (fromNode 8) 108) (after .clockSecondCount (after (.readTime (clerkAt .oselRises)) rack))
    s.tc.clock = now + 1 ∧ s.tc.highWater = now + 1 ∧
      dataOf (.readTime (clerkAt .handled)) s = bytes4 now ++ bytes4 (now / 60) ++ [0, 100, 0, 0] ++ bytes4 now ++ [1] := by
  decide +kernel

theorem test_read_alarms : (dataOf (.readAlarms clerk 3) jumping) = [4, 5, 0, 0, 0, 0x04, 0xB0] ∧
    resultOf (.readAlarms clerk 64) jumping = some (some .range) := by decide +kernel

/-- 03, "a day boundary with a transfer", about to count into day 101 at 06:00 with day offset 360. -/
def turning : State :=
  let six : Nat := 101 * 1440 + 360 - 1440
  { State.reset with
    tc := ⟨six * 60 - 1, six * 60 - 5400, true, 360, 100, false⟩
    accounts := tabulate 64 (fun i => match i.val with
      | 4 =>
        { Account.free with
          state := .active, card := some 4, status := .drive, since := (six - 90) * 60, nonDriveSince := none
          shiftStart := some (six - 360), shiftDrive := 480 }
      | 11 =>
        { Account.free with
          state := .active, card := some 11, profile := .b, expiry := 465, status := .duty, since := (six - 420) * 60
          nonDriveSince := some (six - 420), shiftStart := some (six - 420) }
      | 20 => { Account.free with state := .active, card := some 20, expiry := 100 }
      | _ => Account.free)
    hu :=
      ⟨⟨.resetA, { Limits.resetA with dMax := 540, warnLead := 45 }, true⟩, ⟨.resetB, .resetB, false⟩,
        [⟨4, .warn, six⟩, ⟨11, .window, six + 480⟩]⟩ }

/-- A SET TIME is classed by today as it stood when it was taken (R150, R158): the clerk's, to the last day's last minute,
passes though the new day is counted before its handling, and is denied where the new day is counted first. -/
theorem test_set_time_classed_when_taken :
    let six := turning.tc.clock + 1
    let setBack := fun m => Instr.setTime (clerkAt m) (BitVec.ofNat 32 six) 361
    resultOf (setBack .handled) (after .clockSecondCount (after (setBack .oselRises) turning)) = some none ∧
    resultOf (setBack .handled) (after (setBack .oselRises) (after .clockSecondCount turning)) = some (some .deniedRole) := by
  decide +kernel

theorem test_minute_boundary :
    let t := after .minuteBoundary turning
    t.tc.treatedDay = 101 ∧ t.hu.alarms = [⟨11, .window, 101 * 1440 + 360 - 1440 + 480⟩] ∧
      (t.account 4).hasAlarm .warn = true ∧ (t.account 4).hasAlarm .overRun = true ∧
      (t.account 20).hasAlarm .expired = true ∧ (t.profile .a).active.dMax = 540 := by decide +kernel

/-- The second counted owes the boundary; the day boundary event then takes it, and the day's work with it (log 2). -/
theorem test_clock_second_count :
    let t := after .clockSecondCount turning
    t.tc.clock = turning.tc.clock + 1 ∧ t.tc.minuteDue = true ∧ t.hu.alarms = turning.hu.alarms := by decide +kernel

theorem test_day_boundary :
    let t := after .dayBoundary (after .clockSecondCount turning)
    t.tc = (after .minuteBoundary turning).tc ∧ t.hu = (after .minuteBoundary turning).hu ∧
      t.account 4 = (after .minuteBoundary turning).account 4 := by decide +kernel

/-! ## Folders (04) -/

/-- Folder 8 is the lowest FREE folder; with it taken, folder 9 still owes a STOP, so 10 is opened (R65). -/
theorem test_create_folder :
    let create := Instr.createFolder boss 40217 7 0xFF 240 300 3 #v[8000, 4000, 6000, 0, 0, 0]
    dataOf create rack = [8] ∧ dataOf create (rack.setFolder 8 (folderIn .opened 7 [])) = [10] := by decide +kernel

theorem test_create_folder_refusals :
    resultOf (.createFolder boss 40217 9 0xFF 240 300 3 #v[8000, 4000, 6000, 0, 0, 0]) rack = some (some .suspended) ∧
    resultOf (.createFolder boss 40217 7 0 240 300 3 #v[8000, 4000, 6000, 0, 0, 0]) rack = some (some .driverBusy) := by
  decide +kernel

theorem test_set_compartment :
    ((after (.setCompartment boss 0 2 6000 1993 5500) rack).folder 0).compartments[2]?
      = some { Compartment.starting 6000 with substance := some 1993, declared := 5500 } ∧
    resultOf (.setCompartment boss 0 5 6000 1993 5500) rack = some (some .range) := by decide +kernel

theorem test_set_papers :
    ((after (.setPapers boss 0 1 #v[(1203, 0x11), (0, 0), (0, 0), (0, 0), (0, 0), (0, 0)]) rack).folder 0).papers
      = [⟨1203, 0x11⟩] ∧
    resultOf (.setPapers boss 0 1 #v[(1203, 0x20), (0, 0), (0, 0), (0, 0), (0, 0), (0, 0)]) rack = some (some .range) := by
  decide +kernel

theorem test_set_trip : ((after (.setTrip boss 5 1440 1440) rack).folder 5).plannedDuty = 1440 ∧
    resultOf (.setTrip boss 6 1 1) rack = some (some .badState) := by decide +kernel

/-- The third SUBMIT of 05, "a plan through SUBMIT": PAPERED with placard set 3 alone. -/
theorem test_submit : ((after (.submit boss 0) rack).folder 0).state = .papered ∧
    dataOf (.submit boss 0) rack = [0x00, 0x08] := by decide +kernel

/-- Its first SUBMIT, PAPERS at line 2, and its second, ENDORSEMENT at account 14 (here account 0). -/
theorem test_submit_refusals :
    let first := rack.setFolder 0 (planned [⟨1203, 0x01⟩, ⟨1993, 0x02⟩, ⟨1830, 0x18⟩])
    let second := rack.setAccount 0 { midShift with endorsements := 0x08, liveFolder := some 0 }
    resultOf (.submit boss 0) first = some (some .papers) ∧ dataOf (.submit boss 0) first = [0, 2] ∧
      resultOf (.submit boss 0) second = some (some .endorsement) ∧ dataOf (.submit boss 0) second = [2, 0] := by
  decide +kernel

theorem test_reopen : ((after (.reopen boss 1) rack).folder 1).placards = 0 ∧
    resultOf (.reopen boss 0) rack = some (some .badState) := by decide +kernel

theorem test_assign_bay : ((after (.assignBay boss 1 0) rack).folder 1).bay = some 0 ∧
    resultOf (.assignBay boss 1 7) rack = some (some .bayBusy) := by decide +kernel

theorem test_unassign : ((after (.unassign boss 2) rack).folder 2).bay = none ∧
    resultOf (.unassign boss 3) rack = some (some .badState) := by decide +kernel

/-- The AMEND of 04: compartment 0 to 7645 makes the folder READY; 7791 is above its fill limit of 7760 (06). -/
theorem test_amend : dataOf (.amend boss 4 0 7645) rack = [1, 7] ∧
    resultOf (.amend boss 4 0 7791) rack = some (some .fillLimit) := by decide +kernel

theorem test_override : ((after (.overrideFolder boss 4) rack).folder 4).overrideMark = true ∧
    resultOf (.overrideFolder clerk 4) rack = some (some .deniedRole) := by decide +kernel

/-- VOID of a LOADING folder: a VOID entry, STOP VOID owed by its running compartments, its drivers and bay freed (R80). -/
theorem test_void :
    let t := after (.voidFolder boss 3) rack
    dataOf (.voidFolder boss 3) rack = bytes4 4001 ∧ t.dl.held.length = 2 ∧
      t.owedStops = [.stop 2 3 1 .voided, .stop 2 3 2 .voided, .stop 2 3 3 .voided, .stop 4 9 0 .voided] ∧
      (t.account 8).liveFolder = none ∧ t.folderOfBay 2 = none := by decide +kernel

theorem test_void_is_denied_to_the_office_at_reset : resultOf (.voidFolder clerk 3) rack = some (some .deniedRole) ∧
    (after (.voidFolder clerk 3) rack).rc.denials.length = 1 := by decide +kernel

theorem test_finish_loading : dataOf (.finishLoading boss 7) rack = [5] ∧
    ((after (.finishLoading boss 3) rack).folder 3).holdReasons = ⟨true, true⟩ := by decide +kernel

theorem test_read_folder : ((after (.readFolder clerk 4) rack).folder 4).unread = false ∧
    resultOf (.readFolder clerk 8) rack = some (some .badState) := by decide +kernel

theorem test_read_compartment : (dataOf (.readCompartment clerk 4 0) rack).take 9
    = bytes2 8000 ++ bytes2 1203 ++ bytes2 7600 ++ [6] ++ bytes2 7645 := by decide +kernel

theorem test_next_flagged_folder : dataOf (.nextFlaggedFolder clerk) rack = [4] := by decide +kernel

/-! ## Dangerous goods tables (05) -/

theorem test_set_substance : dataOf (.setSubstance boss 1300 4 2 900) inOffice = [5] ∧
    resultOf (.setSubstance boss 1203 4 2 900) inOffice = some (some .inUse) := by decide +kernel

theorem test_clear_substance : resultOf (.clearSubstance boss 1203) inOffice = some (some .inUse) ∧
    resultOf (.clearSubstance boss 5) inOffice = some (some .unknownSubstance) := by decide +kernel

theorem test_read_substance : dataOf (.readSubstance clerk 1830) rack = [8, 6, 0x03, 0xB6, 1, 0] := by decide +kernel

theorem test_list_substances : dataOf (.listSubstances clerk 3) rack = [4, 0x23, 0x29, 0, 0, 0x03, 0xE8] := by decide +kernel

/-- NEVER at (8, 3) returns folder 1 alone: PAPERED and holding both groups. The same ruling again returns none. -/
theorem test_set_matrix_pair :
    let t := after (.setMatrixPair boss 8 3 2) inOffice
    dataOf (.setMatrixPair boss 8 3 2) inOffice = [0x00, 0x02] ∧ (t.folder 1).state = .opened ∧
      t.cell 3 8 = .never ∧ dataOf (.setMatrixPair boss 3 8 2) t = [0, 0] := by decide +kernel

theorem test_set_matrix_pair_fixed_cells : resultOf (.setMatrixPair boss 3 3 2) inOffice = some (some .range) ∧
    resultOf (.setMatrixPair boss 0 8 2) inOffice = some (some .range) := by decide +kernel

theorem test_read_matrix : dataOf (.readMatrix clerk 3) rack = [0, 2, 2, 0, 2, 2, 2, 2, 1, 2, 2, 2, 2, 2, 2, 2] := by
  decide +kernel

theorem test_set_threshold : (after (.setThreshold boss 15 60000) inOffice).threshold 14 = 60000 ∧
    resultOf (.setThreshold boss 16 0) inOffice = some (some .range) := by decide +kernel

theorem test_read_thresholds : (dataOf (.readThresholds clerk) rack).take 6 = [0, 0, 0, 0, 0x03, 0xE8] := by decide +kernel

/-! ## Metering settings (06) -/

theorem test_set_metering : resultOf (.setMetering boss 2 3 2 2 5 20 20 50) inOffice = some (some .range) ∧
    resultOf (.setMetering boss 2 3 2 12 5 20 20 50) inOffice = some none := by decide +kernel

theorem test_read_metering : dataOf (.readMetering clerk) State.reset = [2, 3, 2, 12, 5, 0, 20, 20, 0, 50] := by decide +kernel

/-! ## Delivery log (07) -/

theorem test_read_log_oldest : (dataOf (.readLogOldest clerk) rack).take 7 = [0, 1, 0, 0, 0x0F, 0xA0, 1] ∧
    dataOf (.readLogOldest clerk) State.reset = [0, 0, 0, 0, 0, 1] := by decide +kernel

theorem test_read_log : resultOf (.readLog clerk 3999) rack = some (some .range) ∧
    resultOf (.readLog clerk 4000) rack = some none := by decide +kernel

/-- 4000 is the newest sequence; 4001 is above what may be acknowledged; the log warning is 768. -/
theorem test_ack_log : dataOf (.ackLog boss 4000) rack = [0, 1, 0, 0] ∧
    resultOf (.ackLog boss 4001) rack = some (some .range) := by decide +kernel

theorem test_log_status :
    dataOf (.logStatus clerk) rack = [0, 1] ++ bytes4 4000 ++ bytes4 4000 ++ bytes4 4001 ++ bytes2 768 ++ [0] := by
  decide +kernel

theorem test_set_log_warning : (after (.setLogWarning boss 1024) inOffice).dl.level = 1024 ∧
    resultOf (.setLogWarning boss 1025) inOffice = some (some .range) := by decide +kernel

/-! ## Rights (08) -/

theorem test_set_rights : resultOf (.setRights clerk 0x40 1) rack = some (some .deniedRole) ∧
    dataOf (.setRights boss 0x40 1) rack = [1, 1, 1, 1, 1, 1, 1, 1, 1, 1] := by decide +kernel

theorem test_read_rights : dataOf (.readRights clerk) State.reset = [1, 1, 1, 1, 1, 1, 0, 1, 1, 1, 0] := by decide +kernel

/-- Position 3 of the READ DENIALS of 08: OFFICE, node absent, VOID, group VOID, DENIED_ROLE, no folder named. -/
theorem test_read_denials : dataOf (.readDenials clerk) (after (.voidFolder clerk 3) rack)
    = [1, 0, 0xFF, 0x3A, 6, 1, 0xFF] ++ bytes4 now := by decide +kernel

/-! ## Rack link settings (09) -/

/-- A node leaves the enrolled set only while no folder holds its bay (R160); a period is a multiple of 50. -/
theorem test_set_link : resultOf (.setLink boss 250 8 0x17F) inOffice = some (some .inUse) ∧
    resultOf (.setLink boss 275 8 0x1FF) inOffice = some (some .range) := by decide +kernel

theorem test_readmit_node :
    (after (.readmitNode boss 6) (rack.setNode 6 ⟨.isolated, 255, 0, none⟩)).node 6 = NodeEntry.start ∧
    dataOf (.readmitNode boss 6) (rack.setNode 6 ⟨.isolated, 255, 0, none⟩) = [4] := by decide +kernel

theorem test_read_link : (dataOf (.readLink clerk) State.reset).take 16
    = [0, 250, 8, 0x01, 0xFF, 0, 0, 0, 0, 0, 0, 0, 0xFF, 0xFF, 0xFF, 0xFF] := by decide +kernel

/-! ## Office port (10) -/

/-- A reply read back: summary byte and two zero bytes, then state byte HELD, tag, code, result, length, data; zero
bytes beyond it (R178, R180). -/
theorem test_read_reply :
    (after (.readReply ⟨0, false, .atOnce, 8⟩) (after (.nextFlaggedFolder clerk) rack)).out.office
      = [0x80, 0, 0, 1, 0x2A, 0x3E, 0, 1, 4, 0, 0] := by decide +kernel

theorem test_ack_attention : dataOf (.ackAttention clerk 0x08) (setAttention .folder (setAttention .alarm rack)) = [0, 0x10] ∧
    resultOf (.ackAttention clerk 0x100) rack = some (some .range) := by decide +kernel

/-- LOG alone turned off, then on again (10, "attention through a busy minute"). -/
theorem test_set_enables : dataOf (.setEnables clerk 0x20 0x00) rack = [0, 0xDF] ∧
    attnAsserted (setAttention .log (after (.setEnables clerk 0x20 0x00) rack)) = false := by decide +kernel

theorem test_read_attention : dataOf (.readAttention clerk) State.reset = [0, 0x01, 0, 0xFF, 1] := by decide +kernel

theorem test_unknown_command_code :
    (after (.unknownCommandCode clerk 0xEE 0) rack).op.reply = some ⟨0x2A, 0xEE, some .format, []⟩ := by decide +kernel

theorem test_dropped_frame : (after (.droppedFrame [0x17, 43, 1] 4) rack).account 43 = rack.account 43 ∧
    (after (.droppedFrame [0x17, 43, 1] 4) rack).op = rack.op ∧
    (after (.droppedFrame [0x17, 43, 1] 4) rack).out.office = [0x80, 0, 0] := by decide +kernel

theorem test_busy_transaction : (after (.busyTransaction 3) rack).out.office = [0xFF, 0xFF, 0xFF] ∧
    (after (.busyTransaction 3) rack).op = rack.op := by decide +kernel

/-- A node enters WARNING after OSEL fell and before the command: this summary byte does not show it, the next one does
(R178, R186). -/
theorem test_summary_byte_of_the_fall :
    let s := after (.damagedFrame 6) (after (.readTime (clerkAt .oselFalls)) (rack.setNode 6 ⟨.present, 88, 0, none⟩))
    s.op.flags = 0x04 ∧ (after (.readTime clerk) s).out.office = [0x80, 0, 0] ∧
      (after (.readTime clerk) (after (.readTime clerk) s)).out.office = [0x93, 0, 0] := by decide +kernel

/-- A second counted between the rise of OSEL and the handling does not move the arrival (R44, R177). -/
theorem test_arrival_stamped_at_the_rise :
    let s := after .clockSecondCount (after (.voidFolder (clerkAt .oselRises) 3) rack)
    let t := after (.voidFolder (clerkAt .handled) 3) s
    dataOf (.readDenials clerk) t = [1, 0, 0xFF, 0x3A, 6, 1, 0xFF] ++ bytes4 now ∧ t.tc.clock = now + 1 := by decide +kernel

/-- A transaction whose OSEL falls while the port is busy is not taken, though the command before it is handled before its
OSEL rises, and it shifts out all-ones bytes (R176). -/
theorem test_transaction_begun_while_busy :
    let s := after (.readTime (clerkAt .handled))
      (after (.suspendAccount (clerkAt .oselFalls) 7) (after (.readTime (clerkAt .oselRises)) rack))
    let t := after (.suspendAccount (clerkAt .oselRises) 7) s
    s.op.reply.map OfficeReply.code = some 0x2A ∧ t.out.office = [0xFF, 0xFF, 0xFF, 0xFF] ∧ t.op = s.op ∧
      (after (.suspendAccount (clerkAt .handled) 7) t).account 7 = rack.account 7 ∧
      (after (.readMode clerk) t).op.reply.map OfficeReply.code = some 0x79 := by decide +kernel

/-- A frame dropped while the port is busy leaves the command that waits to be handled (R175, R176). -/
theorem test_dropped_frame_while_busy :
    let s := after (.droppedFrame [0x13, 0x2B] 4) (after (.suspendAccount (clerkAt .oselRises) 7) rack)
    s.out.office = [0xFF, 0xFF] ∧ s.account 7 = rack.account 7 ∧
      ((after (.suspendAccount (clerkAt .handled) 7) s).account 7).state = .suspended := by decide +kernel

/-! ## Modes and starts (11) -/

/-- In RUN with two LOADING folders CONFIG waits: RUN, pending CONFIG, two LOADING. -/
theorem test_request_mode : dataOf (.requestMode clerk 0) rack = [2, 0, 2] ∧
    (after (.requestMode clerk 0) rack).mc.pendingTarget = some .config := by decide +kernel

theorem test_request_mode_no_clock : resultOf (.requestMode clerk 2) State.reset = some (some .noClock) := by decide +kernel

theorem test_read_mode : dataOf (.readMode clerk) leaving = [2, 0, 2, 1, 1, 0] := by decide +kernel

theorem test_clear_all : resultOf (.clearAll boss) rack = some (some .mode) ∧
    ((after (.clearAll boss) inOffice).folder 3).state = .free := by decide +kernel

theorem test_cold_start :
    let t := after .coldStart rack
    t.tc = State.reset.tc ∧ t.op = State.reset.op ∧ t.mc = State.reset.mc ∧ t.dl = State.reset.dl ∧ t.mr = State.reset.mr ∧
      t.account 9 = Account.free ∧ t.folder 3 = Folder.free [Compartment.starting 100] ∧ t.cell 3 8 = .never := by
  decide +kernel

/-- A warm start during loading: CONFIG, RESTART and FOLDER set, folder 3's running compartments interrupted. -/
theorem test_warm_start :
    let t := after (.warmStart .reset) rack
    t.mc = ⟨.config, none, ⟨.warm, .reset⟩⟩ ∧ t.op.flags = 0b00010010 ∧
      (t.folder 3).compartments.map Compartment.loading = [.planned, .interrupted, .interrupted, .interrupted, .empty] ∧
      t.owedStops = [] := by decide +kernel

theorem test_reset_asserted : (after (.resetAsserted) rack).running = false ∧
    attnAsserted (after .resetAsserted (setAttention .alarm rack)) = false := by decide +kernel

/-- A command taken and cut off before its handling leaves the port idle after the start, so its repeat is taken; one whose
OSEL had not risen when RESET fell is not taken, whenever it rises (R176, R197, R198). -/
theorem test_commands_cut_by_reset :
    let restarted := fun s => after (.warmStart .reset) (after .resetAsserted s)
    let s := restarted (after (.readTime (clerkAt .oselRises)) rack)
    let t := restarted (after (.readTime (clerkAt .oselFalls)) rack)
    s.out.office = [] ∧ (after (.readTime clerk) s).op.reply.map OfficeReply.code = some 0x2A ∧
      (after (.readTime clerk) s).out.office = [0x12, 0, 0] ∧
      (after (.readTime (clerkAt .oselRises)) t).out.office = [0xFF, 0xFF, 0xFF] ∧
      (after (.readTime (clerkAt .oselRises)) t).underway.risen = none := by decide +kernel

/-- A power-on with RESET held low makes its start, by BKOK, when RESET returns high; until then a transaction shifts out
all-ones bytes (R197). -/
theorem test_power_on_with_reset_low :
    let up := after .coldStart (after .resetAsserted (after .powerFail rack))
    up.running = false ∧ up.dl = rack.dl ∧ (after (.readTime clerk) up).out.office = [0xFF, 0xFF, 0xFF] ∧
      (after (.warmStart .reset) up).mc.lastStart = ⟨.cold, .power⟩ ∧ (after (.warmStart .reset) up).dl = State.reset.dl ∧
      (after (.warmStart .reset) (after (.warmStart .power) resetHeld)).mc.lastStart = ⟨.warm, .power⟩ := by decide +kernel

theorem test_power_fail : (after .powerFail rack).running = false ∧
    (after (.submit boss 0) (after .powerFail rack)).folder 0 = rack.folder 0 ∧
    (after (.submit boss 0) (after .powerFail rack)).op = rack.op := by decide +kernel

/-! ## Rack link (04, 06, 07, 09) -/

theorem test_card : answerOf (.card (fromNode 1) 40217 102) rack = some (.accept, .folder 2) ∧
    answerOf (.card (fromNode 1) 40217 102) leaving = some (.deny .mode, .none) := by decide +kernel

/-- 09 R174, 11 R192: a frame that arrived in RUN is taken though the mode leaves RUN before its slot ends, and one that
arrived in CONFIG is not, though the mode is RUN by then (R168). -/
theorem test_taken_by_the_mode_at_arrival :
    let arrived := after (.entry (arriving 8) 108) quiet
    answerOf (.entry (fromNode 8) 108) (after (.requestMode clerk 0) arrived) = some (.accept, .account 8) ∧
    (after (.requestMode clerk 0) arrived).mc.mode = .config ∧
    (after (.entry (fromNode 8) 108) (after (.requestMode clerk 2) (after (.entry (arriving 8) 108) inOffice))).rlc.queue
      = [] := by decide +kernel

/-- The rack leaving RUN with folder 3 the last one LOADING. -/
def lastLoading : State := leaving.setFolder 7 (Folder.free [])

/-- A CARD that arrived while a change was pending: refused with MODE after the completion, its folder still ASSIGNED, and
taken after the cancellation (R82). One that arrived with none pending is served in RUN (R192). -/
theorem test_card_across_a_mode_change :
    let arrived := after (.card (arriving 1) 40217 102)
    let done := after (.voidFolder boss 3) (arrived lastLoading)
    (done.mc.mode = .config ∧ answerOf (.card (fromNode 1) 40217 102) done = some (.deny .mode, .none) ∧
      ((after (.card (fromNode 1) 40217 102) done).folder 2).state = .assigned) ∧
    answerOf (.card (fromNode 1) 40217 102) (after (.requestMode clerk 2) (arrived lastLoading))
      = some (.accept, .folder 2) ∧
    (let left := after (.requestMode clerk 0) (arrived (lastLoading.setFolder 3 (Folder.free []) |>.setPendingTarget none));
      left.mc.mode = .config ∧ answerOf (.card (fromNode 1) 40217 102) left = some (.accept, .folder 2)) := by
  decide +kernel

theorem test_card_of_another_driver : answerOf (.card (fromNode 1) 40217 107) rack = some (.deny .wrongCard, .none) := by
  decide +kernel

/-- ARMS at the reset setting of two arms, PERMIT at four; START of an EMPTY compartment is BAD_STATE (06). -/
theorem test_start : answerOf (.start (fromNode 2) 3 0) rack = some (.permit, .compartment 0) ∧
    answerOf (.start (fromNode 2) 3 0) { rack with mr := State.reset.mr } = some (.deny .arms, .none) := by decide +kernel

theorem test_start_of_an_empty_compartment : answerOf (.start (fromNode 2) 3 4) rack = some (.deny .badState, .none) := by
  decide +kernel

/-- 06, "an overload on one compartment": 7755 is past 7752; from 7700 straight to 7770 it is OVERFILL. -/
theorem test_total_overload :
    (after (.total (fromNode 2) 3 1 7755 1) rack).owedStops.head? = some (.stop 2 3 1 .overload) ∧
    (after (.total (fromNode 2) 3 1 7770 1) rack).owedStops.head? = some (.stop 2 3 1 .overfill) := by decide +kernel

/-- 06, "a two-compartment loading": a lower total is counted in silence; a bay without the folder is denied. -/
theorem test_total_refused :
    ((after (.total (fromNode 2) 3 1 1150 1) rack).folder 3).compartments[1]?.map Compartment.rejectedReports = some 1 ∧
    (after (.total (fromNode 2) 3 1 1150 1) rack).rlc.queue = [] ∧
    answerOf (.total (fromNode 4) 7 0 1200 1) rack = some (.deny .deniedWindow, .none) := by decide +kernel

theorem test_settling_of_06 :
    let m := State.reset.mr
    let c := fun total c => takeTotal m (some 7760) 2 now total false c
    let d := c 7645 (c 7644 (c 7643 (c 7640 (held 1203 7600 1200 .flowing none))))
    d.loading = .settled ∧ d.settleCount = 3 ∧ d.stoppedReports = 4 ∧ c 7645 d = d := by decide +kernel

theorem test_end : ((after (.endCompartment (fromNode 2) 3 2) rack).folder 3).compartments[2]?.map Compartment.loading
      = some .loaded ∧
    answerOf (.endCompartment (fromNode 2) 3 0) rack = some (.deny .badState, .none) := by decide +kernel

/-- 06: d = 45 lies between 38 and 152, so AMEND; d = 10 within 27, so MATCH; the reply carries AMEND_WAIT. -/
theorem test_done : answerOf (.doneLoading (fromNode 7) 7) rack = some (.accept, .folderState .amendWait) ∧
    ((after (.doneLoading (fromNode 7) 7) rack).folder 7).compartments.map Compartment.result
      = [some .amend, none, some .matched] := by decide +kernel

theorem test_done_in_progress : answerOf (.doneLoading (fromNode 2) 3) rack = some (.deny .inProgress, .none) := by
  decide +kernel

theorem test_entry : ((after (.entry (fromNode 8) 108) rack).account 8).status = .duty ∧
    answerOf (.entry (fromNode 8) 108) rack = some (.accept, .account 8) := by decide +kernel

/-- 07, the second RELEASE: set 3, 8 confirmed is granted with the next sequence, the DISPATCH entry appended. -/
theorem test_release_granted : answerOf (.release (fromNode 8) 5 0x0108) rack = some (.grant, .sequence 4001) ∧
    ((after (.release (fromNode 8) 5 0x0108) rack).dl.held.getLast?.map LogEntry.placards) = some 0x0108 := by decide +kernel

/-- 07, the first RELEASE: expiry 99 on day 100 and set 3 alone give EXPIRED and PLACARD. -/
theorem test_release_refused :
    let s := rack.setAccount 5 { rackAccount 5 with expiry := 99 }
    answerOf (.release (fromNode 8) 5 0x0008) s = some (.refuse (reasonSet [.expired, .placard]), .folderState .ready) ∧
    ((after (.release (fromNode 8) 5 0x0008) s).folder 5).lastRefusal = 0x00400400 := by decide +kernel

theorem test_exit : ((after (.exit (fromNode 8) 6) rack).account 6).status = .drive ∧
    ((after (.exit (fromNode 8) 6) rack).account 11).status = .duty ∧
    ((after (.exit (fromNode 8) 6) rack).folder 6).state = .free := by decide +kernel

/-- A gate that sends a bay's kind is denied in class 2 for START (08). -/
theorem test_start_from_the_gate : (after (.start (fromNode 8) 2 0) rack).rlc.queue
    = [⟨8, 17, .deny .deniedRole, .none, .two⟩] := by decide +kernel

/-- 09, "a bay controller losing its line": 64 to 63 returns to PRESENT; a good frame ends ABSENT in WARNING at 98. -/
theorem test_idle :
    (after (.idle (fromNode 6)) (rack.setNode 6 ⟨.warning, 64, 3, none⟩)).node 6 = ⟨.present, 63, 0, some now⟩ ∧
    (after (.idle (fromNode 6)) (rack.setNode 6 ⟨.absent, 99, 8, none⟩)).node 6 = ⟨.warning, 98, 0, some now⟩ := by
  decide +kernel

theorem test_malformed_frame : (after (.malformedFrame 2 .slotEnd [0x09, 0x21]) rack).rlc.queue
    = [⟨2, 0x21, .deny .format, .none, .three⟩] := by decide +kernel

theorem test_damaged_frame :
    (after (.damagedFrame 6) (rack.setNode 6 ⟨.present, 88, 0, none⟩)).node 6 = ⟨.warning, 96, 0, none⟩ ∧
    (after (.damagedFrame 6) (rack.setNode 6 ⟨.warning, 248, 0, none⟩)).node 6 = ⟨.isolated, 255, 0, none⟩ := by
  decide +kernel

/-- The eighth empty slot makes node 2 ABSENT; its LOADING folder's running compartments are interrupted (R121, R165). -/
theorem test_empty_slot :
    let t := after (.emptySlot 2) (rack.setNode 2 ⟨.warning, 99, 7, none⟩)
    t.node 2 = ⟨.absent, 99, 8, none⟩ ∧ (t.folder 3).unread = true ∧ (t.folder 3).running = 0 ∧
      (t.folder 3).state = .loading := by decide +kernel

/-- 09, "one cycle and its beacon": the seven records in their order, and what is left after them. -/
theorem test_beacon :
    let replies : List ReplyRecord :=
      [⟨1, 17, .accept, .folder 2, .three⟩, ⟨8, 90, .accept, .account 30, .three⟩]
    let joined := joinQueue ⟨8, 12, .grant, .sequence 4001, .one⟩
      (joinQueue ⟨4, 51, .deny .deniedWindow, .none, .three⟩ (joinQueue ⟨2, 33, .permit, .compartment 2, .two⟩ replies))
    let stopped := { Compartment.starting 1000 with owedStop := some ⟨.voided, 4⟩ }
    let s := { rack.setFolder 9 (Folder.free [stopped, stopped]) with
      rlc := { rack.rlc with queue := joined, cycle := 41, taken := 0b101010100 } }
    let t := after .beacon s
    t.out.beacon = some ⟨41, .run, 0b101010100,
      [.stop 4 9 0 .voided, .stop 4 9 1 .voided, .reply ⟨8, 12, .grant, .sequence 4001, .one⟩,
       .reply ⟨2, 33, .permit, .compartment 2, .two⟩, .reply ⟨1, 17, .accept, .folder 2, .three⟩,
       .reply ⟨8, 90, .accept, .account 30, .three⟩, .reply ⟨4, 51, .deny .deniedWindow, .none, .three⟩]⟩ ∧
    t.rlc.queue = [] ∧ t.owedStops = [] ∧ t.rlc.cycle = 42 := by decide +kernel

/-! ## The queue -/

theorem test_step_takes_the_front : step { rack with pending := [.beacon, .coldStart] } = exec .beacon { rack with pending := [.coldStart] } := by
  rfl

theorem test_table_words_spell_nothing : rack.withFetchWord 24 0x010203 = rack := by rfl

/-! ## The hypotheses of the statements can be met

One theorem for each statement that has hypotheses, clause by clause, at the ends of the ranges. -/

/-- The rack with RESET held low, and the rack without power. -/
def resetLow : State := { rack with pins := ⟨true, true, none⟩ }
def unpowered : State := { rack with pins := ⟨false, false, none⟩ }

/-- The rack with one command waiting. -/
def waiting : State := { rack with pending := [.submit boss 0] }

theorem witness_EveryStepAnswersANextState : State.reset.pending = [] ∧ waiting.pending ≠ [] := by decide +kernel

theorem witness_OfficeFramesDecodeToTheirCommands :
    (officeParts (.amend ⟨0x2A, false, .atOnce, 2⟩ 5 0 7645) = some (⟨0x2A, false, .atOnce, 2⟩, .amend, [5, 0, 0x1D, 0xDD]) ∧
      ([0xFF, 0xFF] : List Byte).length = 2) ∧
    officeParts (.readMode clerk) = some (clerk, .readMode, []) ∧ ([] : List Byte).length = clerk.extra := by
  decide +kernel

theorem witness_LinkFramesDecodeToTheirRequests :
    linkParts (.release (fromNode 8) 12 0x0108) = some (fromNode 8, .release, [12, 0x01, 0x08]) := by decide +kernel

theorem witness_NothingIsTakenWhileNotRunning :
    (resetLow.running = false ∧ exec .clockSecondCount resetLow = .next (after .clockSecondCount resetLow)) ∧
    (unpowered.running = false ∧ exec .minuteBoundary unpowered = .next (after .minuteBoundary unpowered)) ∧
    (exec (.submit boss 0) resetLow = .next (after (.submit boss 0) resetLow) ∧
      officeParts (.submit boss 0) = some (boss, .submit, [0]) ∧ resetLow.pins.powered = true ∧ boss.moment = .atOnce) ∧
    (exec (.submit (clerkAt .oselFalls) 0) resetLow = .next (after (.submit (clerkAt .oselFalls) 0) resetLow) ∧
      officeParts (.submit (clerkAt .oselFalls) 0) = some (clerkAt .oselFalls, .submit, [0])) ∧
    (exec (.submit (clerkAt .oselRises) 0) resetLow = .next (after (.submit (clerkAt .oselRises) 0) resetLow) ∧
      officeParts (.submit (clerkAt .oselRises) 0) = some (clerkAt .oselRises, .submit, [0])) :=
  ⟨⟨by decide, rfl⟩, ⟨by decide, rfl⟩, ⟨rfl, rfl, by decide, rfl⟩, ⟨rfl, rfl⟩, rfl, rfl⟩

theorem witness_DeniedCommandOnlyLeavesItsDenial :
    (isOffice (.voidFolder clerk 3) clerk .voidFolder ∧ rack.handles clerk ∧
      officePasses rack clerk (classIn rack (.voidFolder clerk 3)) = false) ∧
    (linkParts (.exit (fromNode 0) 6) = some (fromNode 0, .exit, [6]) ∧
      rack.servesFrame (fromNode 0).node (fromNode 0).moment ∧ bayOfNode (fromNode 0).node = some 0) ∧
    (linkParts (.start (fromNode 0) 3 0) = some (fromNode 0, .start, [3, 0]) ∧ ∀ f, (rack.folder f).bay ≠ some 0) ∧
    (linkParts (.doneLoading (fromNode 7) 255) = some (fromNode 7, .done, [255]) ∧
      rack.servesFrame (fromNode 7).node (fromNode 7).moment ∧ bayOfNode (fromNode 7).node = some 7 ∧
      (rack.folder 7).bay = some 7 ∧ (∀ g, g < 7 → (rack.folder g).bay ≠ some 7) ∧
      (255 : Byte).toNat ≠ (7 : Fin 16).val) ∧
    (linkParts (.total (fromNode 8) 3 1 7755 1) = some (fromNode 8, .total, [3, 1, 0x1E, 0x4B, 1]) ∧
      rack.servesFrame (fromNode 8).node (fromNode 8).moment ∧ (fromNode 8).node = 8) :=
  ⟨⟨⟨_, rfl⟩, by simp only [State.handles]; decide, by decide⟩,
    ⟨by decide, by simp only [State.servesFrame]; decide, by decide⟩, ⟨by decide, by decide +kernel⟩,
    ⟨by decide, by simp only [State.servesFrame]; decide, by decide, by decide, by decide +kernel, by decide⟩,
    by decide, by simp only [State.servesFrame]; decide, by decide⟩

theorem witness_RefusedCommandChangesNoRecord :
    (isOffice (.reopen boss 0) boss .reopen ∧ rack.handles boss ∧
      exec (.reopen boss 0) rack = .next (after (.reopen boss 0) rack) ∧
      (after (.reopen boss 0) rack).op.reply = some ⟨0x29, 0x35, some .badState, []⟩) ∧
    (linkParts (.doneLoading (fromNode 2) 3) = some (fromNode 2, .done, [3]) ∧
      rack.servesFrame (fromNode 2).node (fromNode 2).moment ∧
      exec (.doneLoading (fromNode 2) 3) rack = .next (after (.doneLoading (fromNode 2) 3) rack) ∧
      (after (.doneLoading (fromNode 2) 3) rack).rlc.queue
        = joinQueue ⟨2, 17, .deny .inProgress, .none, .three⟩ rack.rlc.queue) ∧
    (linkParts (.release (fromNode 8) 6 0) = some (fromNode 8, .release, [6, 0, 0]) ∧
      exec (.release (fromNode 8) 6 0) rack = .next (after (.release (fromNode 8) 6 0) rack) ∧
      (after (.release (fromNode 8) 6 0) rack).rlc.queue
        = joinQueue ⟨8, 17, .refuse (reasonSet [.badState]), .folderState .released, .one⟩ rack.rlc.queue) :=
  ⟨⟨⟨_, rfl⟩, by simp only [State.handles]; decide, rfl, by decide +kernel⟩,
    ⟨by decide, by simp only [State.servesFrame]; decide, rfl, by decide +kernel⟩, by decide, rfl, by decide +kernel⟩

theorem witness_TakenCommandIsAnsweredUnderItsTag :
    (isOffice (.submit boss 1) boss .submit ∧ rack.handles boss ∧
      exec (.submit boss 1) rack = .next (after (.submit boss 1) rack)) ∧
    (isOffice (.reopen boss 0) boss .reopen ∧ exec (.reopen boss 0) rack = .next (after (.reopen boss 0) rack)) :=
  ⟨⟨⟨_, rfl⟩, by simp only [State.handles]; decide, rfl⟩, ⟨_, rfl⟩, rfl⟩

theorem waiting_tablesOk : waiting.TablesOk where
  profiles p := by cases p <;> exact ⟨by decide, by decide, fun _ => rfl⟩
  metering := by decide
  codeOrder := by decide
  substances e he := by
    have h : waiting.gcu.substances.all (fun e => decide ((1 ≤ e.code ∧ e.code ≤ 65535) ∧ 500 ≤ e.fill ∧ e.fill ≤ 1000)) = true := by
      decide
    have := List.all_eq_true.mp h e he
    exact ⟨(of_decide_eq_true this).1, (of_decide_eq_true this).2⟩
  substanceCount := by decide
  symmetric := by decide +kernel
  fixedCells := by decide +kernel
  thresholds := by decide +kernel
  logLevel := by decide
  cyclePeriod := by decide
  silenceLimit := by decide
  dayOffset := by decide

theorem waiting_recordsOk : waiting.RecordsOk where
  accounts :=
    { free := by decide +kernel
      card := fun i hi => by
        have h : ∀ i : Fin 64, (waiting.account i).state ≠ .free → (waiting.account i).card.any (fun n => n != 0) = true := by
          decide +kernel
        have hc := h i hi
        cases hn : (waiting.account i).card with
        | none => rw [hn] at hc; cases hc
        | some n => rw [hn] at hc; exact ⟨n, by simpa using hc, rfl⟩
      distinct := by decide +kernel }
  alarms := ⟨List.Pairwise.nil, List.Pairwise.nil, fun e he => nomatch he⟩
  folders :=
    { free := by decide +kernel
      length := by decide +kernel
      crew := by decide +kernel
      named := by decide +kernel
      naming := by decide +kernel
      bay := by decide +kernel
      oneFolder := by decide +kernel
      arms := by decide +kernel
      idle := by decide +kernel }
  mode _ h := nomatch h
  slot _ h := nomatch h

theorem witness_StepKeepsTheTables : waiting.TablesOk ∧ step waiting = .next (after (.submit boss 0) rack) :=
  ⟨waiting_tablesOk, rfl⟩

theorem witness_StepKeepsTheClockAndTheHours :
    waiting.ClockOk ∧ waiting.HoursOk ∧ step waiting = .next (after (.submit boss 0) rack) :=
  ⟨⟨by decide, by decide, by decide +kernel, by decide⟩,
    fun i => ⟨(by decide +kernel : ∀ i : Fin 64, (waiting.account i).shiftDrive ≤ 65535) i,
      (by decide +kernel : ∀ i : Fin 64, (waiting.account i).driveSinceBreak ≤ 65535) i,
      (by decide +kernel : ∀ (i : Fin 64) (k : Fin 8), (waiting.account i).buckets[k].drive ≤ (waiting.account i).buckets[k].duty
        ∧ (waiting.account i).buckets[k].duty ≤ 1440) i⟩, rfl⟩

theorem witness_StepKeepsTheRecords : waiting.RecordsOk ∧ step waiting = .next (after (.submit boss 0) rack) :=
  ⟨waiting_recordsOk, rfl⟩

theorem witness_StepKeepsTheLink : waiting.LinkOk ∧ step waiting = .next (after (.submit boss 0) rack) :=
  ⟨⟨fun n => ⟨(by decide : ∀ n : Fin 9, (waiting.node n).faults ≤ 255) n,
      (by decide : ∀ n : Fin 9, (waiting.node n).state = .isolated ↔ (waiting.node n).faults = 255) n,
      (by decide : ∀ n : Fin 9, (waiting.node n).silence ≤ waiting.rlc.silenceLimit) n⟩,
    by decide, List.Pairwise.nil, by decide, by decide⟩, rfl⟩

theorem waiting_logOk : waiting.LogOk := ⟨by decide, by decide, by decide, by decide, fun d hd => nomatch hd⟩

theorem witness_StepKeepsTheLog : waiting.LogOk ∧ step waiting = .next (after (.submit boss 0) rack) := ⟨waiting_logOk, rfl⟩

theorem witness_ClockNeverGoesBack :
    exec (.adjustTime boss 3600) rack = .next (after (.adjustTime boss 3600) rack) ∧
      ¬coldStartsAt (.adjustTime boss 3600) rack ∧
    exec (.warmStart .reset) resetLow = .next (after (.warmStart .reset) resetLow) ∧
      ¬coldStartsAt (.warmStart .reset) resetLow :=
  ⟨rfl, fun h => h, rfl, fun h => nomatch h.2⟩

theorem witness_MeteredTotalNeverDecreases :
    (exec (.total (fromNode 2) 3 1 7755 1) rack = .next (after (.total (fromNode 2) 3 1 7755 1) rack) ∧
      ¬coldStartsAt (.total (fromNode 2) 3 1 7755 1) rack ∧ (rack.folder 3).state ≠ .free ∧
      (rack.folder 3).compartments[1]? = some { held 1203 7600 7700 .flowing none with lastReport := some (now - 1) } ∧
      ((after (.total (fromNode 2) 3 1 7755 1) rack).folder 3).compartments[1]?.map Compartment.metered = some 7755) ∧
    ((rack.folder 8).state = .free ∧
      ((after (.createFolder boss 40217 7 0xFF 240 300 3 #v[8000, 4000, 6000, 0, 0, 0]) rack).folder 8).state ≠ .free) ∧
    ((after (.exit (fromNode 8) 6) rack).folder 6).state = .free ∧
    (coldStartsAt .coldStart rack ∧ exec .coldStart rack = .next (after .coldStart rack)) ∧
    (coldStartsAt (.clearAll boss) inOffice ∧ exec (.clearAll boss) inOffice = .next (after (.clearAll boss) inOffice)) ∧
    (rack.servesFrame (fromNode 2).node (fromNode 2).moment ∧ rack.loadsAt (fromNode 2) 2 3 3) :=
  ⟨⟨rfl, fun h => h, by decide +kernel⟩, by decide +kernel, by decide +kernel, ⟨rfl, rfl⟩,
    ⟨⟨⟨by simp only [State.handles]; decide, rfl⟩, rfl⟩, rfl⟩, by simp only [State.servesFrame, State.loadsAt]; decide +kernel⟩

theorem witness_LogGrowsOnlyByReleaseAndVoid :
    exec (.release (fromNode 8) 5 0x0108) rack = .next (after (.release (fromNode 8) 5 0x0108) rack) ∧
      ¬coldStartsAt (.release (fromNode 8) 5 0x0108) rack ∧
    exec (.ackLog boss 4000) rack = .next (after (.ackLog boss 4000) rack) ∧ ¬coldStartsAt (.ackLog boss 4000) rack :=
  ⟨rfl, fun h => h, rfl, fun h => h⟩

theorem witness_BayTouchesOnlyItsOwnFolder :
    (∃ l k fields, linkParts (.card (fromNode 1) 40217 102) = some (l, k, fields) ∧ l.node = nodeOfBay 1) ∧
    exec (.card (fromNode 1) 40217 102) rack = .next (after (.card (fromNode 1) 40217 102) rack) ∧
    exec (.damagedFrame (nodeOfBay 7)) rack = .next (after (.damagedFrame (nodeOfBay 7)) rack) ∧
    (rack.folder 3).bay ≠ some 1 ∧ (∀ f, (rack.folder f).bay = some 1 → (7 : Fin 64) ∉ (rack.folder f).drivers) :=
  ⟨⟨_, _, _, rfl, rfl⟩, rfl, rfl, by decide +kernel⟩

/-- Day offset 1439 and an interval over eight days; an interval of one minute leaves the other seven buckets. -/
theorem witness_CreditGivesEachDayItsMinutes :
    (1439 ≤ 1439 ∧ 0 < 11519 ∧ dayOf 1439 (11519 - 1) < dayOf 1439 0 + 8) ∧
    (0 ≤ 1439 ∧ 5 < 6 ∧ dayOf 0 (6 - 1) < dayOf 0 5 + 8 ∧
      ∀ day ≤ 1, dayOf 0 5 ≤ day → day ≤ dayOf 0 (6 - 1) → day % 8 ≠ (2 : Fin 8).val) := by decide +kernel

/-- A rest of exactly R_min, one a minute short of it, and a break of exactly Brk_min. -/
theorem witness_ShiftRulesAtAStatusChange :
    let a : Account := { midShift with status := .rest, since := 0, nonDriveSince := some 0 };
    (a.status = .rest ∧ Limits.resetA.rMin ≤ 36000 / 60 - a.since / 60) ∧
    ¬(a.status = .rest ∧ Limits.resetA.rMin ≤ 35999 / 60 - a.since / 60) ∧
    (a.nonDriveSince = some 0 ∧ Limits.resetA.brkMin ≤ 1800 / 60 - 0) ∧ ¬Limits.resetA.brkMin ≤ 1799 / 60 - 0 := by
  decide +kernel

theorem witness_RecomputePlacesTheNextAlarm :
    ((jumping.account 5).state ≠ .free ∧ (jumping.account 5).status = .drive) ∧
    ((jumping.account 12).state ≠ .free ∧ (jumping.account 12).status = .duty ∧ (jumping.account 12).shiftStart = some 200) ∧
    (jumping.account 0).state = .free ∧
    (recomputeAt 1040 12 jumping).account 12 ≠ jumping.account 12 := by decide +kernel

/-- The jumping accounts at minute 1060, its boundary still owed. -/
def boundaryOwed : State := { jumping with tc := { jumping.tc with clock := 1060 * 60, minuteDue := true } }

theorem witness_DueAlarmsFireAtTheMinuteBoundary :
    boundaryOwed.AlarmsOk ∧ boundaryOwed.running = true ∧ boundaryOwed.tc.minuteDue = true ∧
      ∃ e ∈ boundaryOwed.hu.alarms, e.due ≤ boundaryOwed.minute :=
  ⟨⟨by decide, by decide, by decide +kernel⟩, by decide, by decide, ⟨3, .warn, 1015⟩, by decide⟩

theorem witness_ReleaseReasonsAreThoseOfTheTable :
    waiting.RecordsOk ∧ waiting.folder 5 = rackFolder 5 ∧ (rackFolder 5).state = .ready :=
  ⟨waiting_recordsOk, by decide +kernel⟩

/-- A running compartment for each clause: flowing again after settling; settled and near; stopped; stopped far; marker
set; past the fill limit; past the amend band; within both. -/
theorem witness_TotalSettlesAndOwesStops :
    let m := State.reset.mr;
    let c := held 1203 7600 7645 .settled none;
    let d := { held 1203 7600 7640 .stopped none with stopSent := true };
    c.inProgress = true ∧ d.inProgress = true ∧ (held 1203 7600 0 .permitted none).inProgress = true ∧
    (7645 - c.metered ≤ m.settleBand) ∧ ¬(7648 - c.metered ≤ m.settleBand) ∧
    (d.loading = .stopped ∧ 7642 - d.metered ≤ m.settleBand) ∧ d.stopSent = true ∧ c.stopSent = false ∧
    (∃ limit, (some 7760 : Option Nat) = some limit ∧ limit < 7761) ∧
    c.declared + max m.amendFloor (c.declared * m.amendTenths / 1000) < 7753 ∧
    ¬(c.declared + max m.amendFloor (c.declared * m.amendTenths / 1000) < 7752) :=
  ⟨by decide, by decide, by decide, by decide, by decide, by decide, by decide, by decide, ⟨7760, rfl, by decide⟩, by decide,
    by decide⟩

/-- The bands of 06 at their ends: 38 and 39, 152 and 153 beyond 7600. -/
theorem witness_ReconciliationAndEvaluation :
    let m := State.reset.mr;
    (held 1203 7600 7638 .loaded none).metered - 7600 ≤ max m.passFloor (7600 * m.passTenths / 1000) ∧
    max m.passFloor (7600 * m.passTenths / 1000) < (held 1203 7600 7639 .loaded none).metered - 7600 ∧
    (held 1203 7600 7752 .loaded none).metered - 7600 ≤ max m.amendFloor (7600 * m.amendTenths / 1000) ∧
    max m.amendFloor (7600 * m.amendTenths / 1000) < (held 1203 7600 7753 .loaded none).metered - 7600 ∧
    (∃ c ∈ (rackFolder 4).compartments, c.substance.isSome = true ∧ c.result = some .amend) ∧
    (∃ c ∈ (rackFolder 5).compartments, c.substance.isSome = true ∧ c.result = some .matched) ∧
    (∃ c ∈ [held 1203 1 0 .unsettled (some .fault)], c.substance.isSome = true ∧ c.result = some .fault) ∧
    (∃ c ∈ [held 1203 1 0 .skipped (some .mismatch)], c.substance.isSome = true ∧ c.result = some .mismatch) := by
  decide +kernel

theorem witness_OpenAndEditAccountComplete :
    rack.admits boss (.grouped .accountEdit) ∧ ProfileLetter.ofCode 1 = some .b ∧ (500 : BitVec 32) ≠ 0 ∧
    (hasMember (0xFE : Byte) 0 = false ∧ hasMember (0 : Byte) 0 = false) ∧
    (∀ j, j ≠ 12 → (rack.account j).state ≠ .free → (rack.account j).card ≠ some (500 : BitVec 32).toNat) ∧
    ((rack.account 12).state = .free ∧ ∀ j, j < 12 → (rack.account j).state ≠ .free) ∧
    (∀ j, j ≠ 5 → (rack.account j).state ≠ .free → (rack.account j).card ≠ some (105 : BitVec 32).toNat) ∧
    ((rack.account 5).state ≠ .free ∧ (rack.account 5).card = some (105 : BitVec 32).toNat) ∧
    ((rack.account 7).state ≠ .free ∧ (rack.account 7).liveFolder = none) ∧ (5 : Byte).toNat = (5 : Fin 64).val := by
  simp only [State.admits, State.handles]
  decide +kernel

theorem witness_AccountMarkCommandsComplete :
    (7 : Byte).toNat = (7 : Fin 64).val ∧ (rack.account 7).state ≠ .free ∧ rack.admits boss (.grouped .accountEdit) ∧
    (rack.account 7).state = .active ∧ (rack.account 7).liveFolder = none ∧ rack.admits clerk (.grouped .statusSet) ∧
    rack.admits clerk .read := by
  simp only [State.admits, State.handles]
  decide +kernel

theorem witness_ResumeAccountMakesActive :
    rack.admits clerk (.grouped .accountEdit) ∧ 63 < (64 : Byte).toNat ∧
    ((63 : Byte).toNat = (63 : Fin 64).val ∧ (rack.account 63).state = .free) ∧
    ((0 : Byte).toNat = (0 : Fin 64).val ∧ (rack.account 0).state = .active) ∧
    ((9 : Byte).toNat = (9 : Fin 64).val ∧ (rack.account 9).state = .suspended) := by
  simp only [State.admits, State.handles]
  decide +kernel

theorem witness_SetStatusMakesTheStatusChange :
    rack.admits clerk (.grouped .statusSet) ∧ (0 : Byte).toNat = (0 : Fin 64).val ∧ Status.ofCode 2 = some .drive ∧
    (rack.account 0).state ≠ .free ∧ (BitVec.ofNat 32 now).toNat ≤ rack.tc.clock ∧ (rack.account 0).status ≠ .drive ∧
    (0 : BitVec 32).toNat < (rack.account 0).since := by
  simp only [State.admits, State.handles]
  decide +kernel

theorem witness_ReadTimeGivesTheClock : rack.admits clerk .read ∧
    (let s := after .clockSecondCount (after (.readTime (clerkAt .oselRises)) rack);
      s.admits (clerkAt .handled) .read ∧ s.officeArrival < s.tc.clock) := by
  simp only [State.admits, State.handles]
  decide +kernel

theorem witness_BlockReadsComplete : rack.admits boss .read ∧ State.reset.admits ⟨0, false, .atOnce, 0⟩ .read := by
  simp only [State.admits, State.handles]
  decide +kernel

theorem witness_AccountAndHoursReadsComplete :
    (let a : Account := { midShift with status := .rest, since := 0, nonDriveSince := some 0 };
      (a.status = .rest ∧ Limits.resetA.rMin ≤ 600 - a.since / 60) ∧
      ¬(a.status = .rest ∧ Limits.resetA.rMin ≤ 599 - a.since / 60) ∧
      (a.status ≠ .drive ∧ a.nonDriveSince = some 0 ∧ Limits.resetA.brkMin ≤ 30 - 0) ∧ ¬Limits.resetA.brkMin ≤ 29 - 0 ∧
      a.shiftStart = some (142560 + 330) ∧ Account.free.shiftStart = none) ∧
    rack.admits clerk .read ∧
    ((101 : BitVec 32) ≠ 0 ∧ (rack.account 1).state ≠ .free ∧ (rack.account 1).card = some (101 : BitVec 32).toNat ∧
      ∀ j, j < 1 → (rack.account j).state ≠ .free → (rack.account j).card ≠ some (101 : BitVec 32).toNat) ∧
    ProfileLetter.ofCode 0 = some .a ∧ ((11 : Byte).toNat = (11 : Fin 64).val ∧ (rack.account 11).state ≠ .free) ∧
    ((7 : Byte).toNat = (7 : Fin 16).val ∧ (rack.folder 7).state ≠ .free) ∧ (63 : Byte).toNat ≤ 63 := by
  simp only [State.admits, State.handles]
  decide +kernel

theorem witness_FolderGoodsAndLogReadsComplete :
    rack.admits clerk .read ∧ ((0 : Byte).toNat = (0 : Fin 16).val ∧ (rack.folder 0).state ≠ .free) ∧
    ((4 : Byte).toNat = (4 : Fin 16).val ∧ (rack.folder 4).compartments[(2 : Byte).toNat]?
      = some (held 1993 5500 5510 .loaded (some .matched))) ∧
    ((9001 : BitVec 16) ≠ 0 ∧ rack.substance (9001 : BitVec 16).toNat = some ⟨9001, 0, 0, 1000⟩) ∧
    (127 : Byte).toNat ≤ 127 ∧ (15 : Byte).toNat = (15 : Fin 16).val ∧
    rack.dl.held.find? (fun x => x.sequence == (4000 : BitVec 32).toNat) = some oldEntry := by
  simp only [State.admits, State.handles]
  decide +kernel

/-- Every item at an end of its range, the break band at D_max. -/
theorem witness_ProfileEditsComplete :
    rack.admits clerk .tableEdit ∧ inOffice.admits clerk .tableEdit ∧ ProfileLetter.ofCode 0 = some .a ∧
    (let l : Limits := ⟨1440, 1440, 1440, 120, 1440, 11520, 120⟩;
      (60 ≤ l.dMax ∧ l.dMax ≤ 1440) ∧ (60 ≤ l.wMax ∧ l.wMax ≤ 1440) ∧ (1 ≤ l.brkMin ∧ l.brkMin ≤ 120) ∧
      (60 ≤ l.rMin ∧ l.rMin ≤ 1440) ∧ (60 ≤ l.cMax ∧ l.cMax ≤ 11520) ∧ l.warnLead ≤ 120 ∧ l.dMax ≤ l.wMax ∧
      (30 ≤ l.bMax ∧ l.bMax ≤ l.dMax)) ∧
    inOffice.mc.mode = .config ∧ rack.mc.mode = .run ∧ rack.mc.mode ≠ .listen ∧
    ((inOffice.account 0).state ≠ .free ∧ (inOffice.account 0).profile = .a) ∧ (inOffice.account 8).profile = .b ∧
    ((after (.setProfile boss 0 540 840 270 30 600 3600 45) rack).profile .a).pendingValid = true := by
  simp only [State.admits, State.handles]
  decide +kernel

theorem witness_ClockMovesComplete :
    (rack.handles clerk ∧ clerk.skey = false ∧ (1439 : BitVec 16).toNat ≤ 1439 ∧
      ((BitVec.ofNat 32 (99 * 86400)).toNat / 60 + 1440 - (1439 : BitVec 16).toNat) / 1440
        < (rack.officeArrival / 60 + 1440 - rack.tc.dayOffset) / 1440) ∧
    (let closed := { rack with rc := { rack.rc with allowed := 0 } };
      closed.handles clerk ∧ closed.allows .time = false) ∧
    (inOffice.handles clerk ∧ (clerk.skey = true ∨
        (inOffice.allows .time = true ∧ (inOffice.officeArrival / 60 + 1440 - inOffice.tc.dayOffset) / 1440 ≤ 49711)) ∧
      inOffice.mc.mode = .config ∧ (4294967294 : BitVec 32).toNat ≤ 4294967294 ∧ (0 : BitVec 16).toNat ≤ 1439 ∧
      inOffice.tc.clock ≤ (4294967294 : BitVec 32).toNat) ∧
    (let s := after .clockSecondCount (after (.setTime (clerkAt .oselRises) (BitVec.ofNat 32 (turning.tc.clock + 1)) 361) turning);
      s.handles (clerkAt .handled) ∧ s.allows .time = true ∧ s.today = 101 ∧ s.mc.mode = .config ∧
      (s.officeArrival / 60 + 1440 - s.tc.dayOffset) / 1440
        ≤ ((BitVec.ofNat 32 (turning.tc.clock + 1)).toNat / 60 + 1440 - (361 : BitVec 16).toNat) / 1440 ∧
      ((BitVec.ofNat 32 (turning.tc.clock + 1)).toNat / 60 + 1440 - (361 : BitVec 16).toNat) / 1440 = 100 ∧
      s.tc.clock ≤ (BitVec.ofNat 32 (turning.tc.clock + 1)).toNat) ∧
    (rack.admits clerk (.grouped .time) ∧ 1 ≤ (3600 : BitVec 16).toNat ∧ (3600 : BitVec 16).toNat ≤ 3600 ∧
      rack.tc.clock + (3600 : BitVec 16).toNat ≤ 4294967294) ∧
    (let later := fun seconds => { rack with tc := { rack.tc with clock := rack.tc.clock + seconds } };
      (rack.minute < (later 60).minute ∧ (later 60).today = (later 60).tc.treatedDay ∧ (later 60).minute ≠ rack.minute) ∧
      ((later 59).minute = rack.minute ∧ (later 59).today = (later 59).tc.treatedDay) ∧
      (later 43200).today ≠ (later 43200).tc.treatedDay) := by
  simp only [State.admits, State.handles]
  decide +kernel

theorem witness_ClockEventsComplete :
    turning.running = true ∧ turning.tc.minuteDue = false ∧
    (boundaryOwed.running = true ∧ boundaryOwed.tc.minuteDue = true ∧ boundaryOwed.today = boundaryOwed.tc.treatedDay) ∧
    (turning.tc.clock / 60 < (turning.tc.clock + 1) / 60 ∧ turning.tc.clock < 4294967294) ∧
    ¬rack.tc.clock / 60 < (rack.tc.clock + 1) / 60 ∧
    (let s := after .clockSecondCount turning;
      s.running = true ∧ s.tc.minuteDue = true ∧ s.today ≠ s.tc.treatedDay ∧ (s.account 20).state = .active ∧
      (s.account 20).expiry < s.today) := by decide +kernel

def sixSlots : Vector (BitVec 16) 6 := #v[100, 60000, 100, 100, 100, 100]

theorem witness_CreateFolderComplete :
    (∀ c ∈ sixSlots.toList.take (6 : Byte).toNat, 100 ≤ c.toNat ∧ c.toNat ≤ 60000) ∧
    rack.admits clerk (.grouped .folderEdit) ∧ (1 : BitVec 32) ≠ 0 ∧ (1440 : BitVec 16).toNat ≤ 1440 ∧
    (7 : Byte).toNat = (7 : Fin 64).val ∧ 1 ≤ (6 : Byte).toNat ∧ (6 : Byte).toNat ≤ 6 ∧
    (∀ i ∈ (7 : Fin 64) :: (none : Option (Fin 64)).toList, (rack.account i).state = .active ∧
      (rack.account i).liveFolder = none) ∧
    (rack.folder 8).state = .free ∧ (∀ c ∈ (rack.folder 8).compartments, c.owedStop = none) ∧
    (∀ g, g < 8 → (rack.folder g).state ≠ .free ∨ ∃ c ∈ (rack.folder g).compartments, c.owedStop ≠ none) := by
  simp only [State.admits, State.handles]
  exact ⟨by simp [sixSlots], by decide +kernel⟩

theorem witness_PlanningCommandsComplete :
    (100 ≤ (60000 : BitVec 16).toNat ∧ (60000 : BitVec 16).toNat ≤ 60000 ∧ (6 : Byte).toNat ≤ 6) ∧
    (∀ p ∈ (#v[(1, 0x1F), (1, 1), (1, 1), (1, 1), (1, 1), (1, 1)] : Vector (BitVec 16 × Byte) 6).toList.take (6 : Byte).toNat,
      p.1 ≠ 0 ∧ p.2 ≠ 0 ∧ ∀ k, k < 8 → hasMember p.2 k = true → k < (rack.folder 0).compartments.length) ∧
    ((0 : Byte).toNat = (0 : Fin 16).val ∧ rack.admits clerk (.grouped .folderEdit) ∧ (rack.folder 0).state = .opened ∧
      (rack.folder 0).compartments[(2 : Byte).toNat]? = some (Compartment.starting 3000)) ∧
    ((rack.folder 5).state ≠ .free ∧ (rack.folder 5).state ≠ .released ∧ (1440 : BitVec 16).toNat ≤ 1440) ∧
    (rack.admits clerk (.grouped .assign) ∧ (0 : Byte).toNat = (0 : Fin 8).val ∧ rack.mc.mode = .run ∧
      rack.mc.pendingTarget = none ∧ (rack.folder 1).state = .papered ∧ (∀ g, g ≠ 1 → (rack.folder g).bay ≠ some 0) ∧
      hasMember rack.rlc.enrolled (0 : Fin 8).val = true ∧ (rack.node (nodeOfBay 0)).state ≠ .isolated) := by
  simp only [State.admits, State.handles]
  refine ⟨by simp, fun p hp => ?_, by decide +kernel, by decide +kernel, by decide +kernel⟩
  have h : p = (1, 0x1F) ∨ p = (1, 1) := by simpa using hp
  rcases h with rfl | rfl
  · exact ⟨by decide, by decide, by decide +kernel⟩
  · exact ⟨by decide, by decide, by decide +kernel⟩

/-- The rack with another plan in its OPEN folder 0, account 8 the second driver. -/
def submitting (cs : List Compartment) (papers : List PapersLine) : State :=
  rack.setFolder 0 { folderIn .opened 0 cs with papers := papers, second := some 8 }

/-- Plans for a failure of each kind: papers, a pair apart with nothing between, the second driver, the primary's
endorsements, the primary's expiry. -/
def badPapers : State := rack.setFolder 0 (planned [⟨1203, 0x01⟩, ⟨1993, 0x02⟩, ⟨1830, 0x18⟩])
def clashing : State :=
  submitting [held 1203 6000 0 .empty none, held 1830 5200 0 .empty none] [⟨1203, 0x01⟩, ⟨1830, 0x02⟩]
def oneProduct : State := submitting [held 1203 6000 0 .empty none] [⟨1203, 0x01⟩]
def unendorsed : State := oneProduct.setAccount 0 { rackAccount 0 with endorsements := 0 }
def lapsed : State := oneProduct.setAccount 0 { rackAccount 0 with expiry := 99 }

/-- No test of the plan check fails beyond the plan's compartments and lines. -/
theorem planTests_beyond (s : State) (x : Folder) (n : Nat) (hc : x.compartments.length ≤ n) (hp : x.papers.length ≤ n) :
    ∀ test ∈ planTests s x, ∀ m, n ≤ m → ¬test.failsAt m := by
  have h1 : ∀ m, n ≤ m → x.compartments[m]? = none := fun m h => List.getElem?_eq_none (Nat.le_trans hc h)
  have h2 : ∀ m, n ≤ m → x.papers[m]? = none := fun m h => List.getElem?_eq_none (Nat.le_trans hp h)
  intro test ht m hm
  simp only [planTests, List.mem_cons, List.not_mem_nil, or_false] at ht
  rcases ht with rfl | rfl | rfl | rfl | rfl | rfl | rfl <;>
    simp [Folder.badCompartment, Folder.badLine, Folder.laterLine, h1 m hm, h2 m hm]

/-- So a run of tests that fails at no index of the plan fails nowhere. -/
theorem planTests_nowhere (s : State) (x : Folder) (k n : Nat) (hc : x.compartments.length ≤ n) (hp : x.papers.length ≤ n)
    (h : ∀ test ∈ (planTests s x).take k, ∀ m, m < n → ¬test.failsAt m) :
    ∀ test ∈ (planTests s x).take k, ∀ m, ¬test.failsAt m := fun test ht m =>
  (Nat.lt_or_ge m n).elim (h test ht m) (planTests_beyond s x n hc hp test (List.mem_of_mem_take ht) m)

theorem badPapers_fail : FirstAt ((planTests badPapers (badPapers.folder 0))[5]).failsAt 2 ∧
    ∀ earlier ∈ (planTests badPapers (badPapers.folder 0)).take 5, ∀ m, ¬earlier.failsAt m := by
  refine ⟨?_, planTests_nowhere _ _ 5 5 (by decide +kernel) (by decide +kernel) ?_⟩
  · simp only [FirstAt, planTests, List.getElem_cons_succ, List.getElem_cons_zero, Folder.badLine]
    decide +kernel
  · simp only [planTests, List.take_succ_cons, List.take_zero, List.forall_mem_cons, List.not_mem_nil,
      false_implies, implies_true, and_true, Folder.badCompartment, Folder.badLine,
      Folder.laterLine]
    decide +kernel

theorem plan_passes_its_tests {s : State}
    (hs : s = clashing ∨ s = oneProduct ∨ s = unendorsed ∨ s = lapsed) :
    ∀ test ∈ planTests s (s.folder 0), ∀ m, ¬test.failsAt m := by
  have h : ∀ test ∈ (planTests s (s.folder 0)).take 7, ∀ m, ¬test.failsAt m := by
    rcases hs with rfl | rfl | rfl | rfl <;>
      refine planTests_nowhere _ _ 7 2 (by decide +kernel) (by decide +kernel) ?_ <;>
      simp only [planTests, List.take_succ_cons, List.take_zero, List.forall_mem_cons, List.not_mem_nil,
      false_implies, implies_true, and_true, Folder.badCompartment, Folder.badLine,
        Folder.laterLine] <;>
      refine ⟨?_, ?_, ?_, ?_, ?_, ?_, ?_⟩ <;> decide +kernel
  exact h

theorem clashing_pair : PairClashes clashing (clashing.folder 0) 0 1 :=
  ⟨by decide, held 1203 6000 0 .empty none, by decide +kernel, held 1830 5200 0 .empty none, by decide +kernel,
    ⟨1203, 3, 3, 970⟩, by decide +kernel, ⟨1830, 8, 6, 950⟩, by decide +kernel,
    .inr ⟨by decide +kernel, fun k h1 h2 => by omega⟩⟩

theorem oneProduct_pairs {s : State} (hs : s = oneProduct ∨ s = unendorsed ∨ s = lapsed) (i j : Nat) :
    ¬PairClashes s (s.folder 0) i j := by
  rintro ⟨hij, c, _, d, hd, _⟩
  have hl : (s.folder 0).compartments.length = 1 := by rcases hs with rfl | rfl | rfl <;> decide +kernel
  rw [List.getElem?_eq_none (by omega)] at hd
  cases hd

theorem witness_SubmitMakesThePlanCheck :
    (rack.admits clerk (.grouped .folderEdit) ∧ (0 : Byte).toNat = (0 : Fin 16).val ∧ (rack.folder 0).state = .opened ∧
      planCheck rack (rack.folder 0) (dayOf rack.tc.dayOffset (rack.officeArrival / 60)) = none) ∧
    (badPapers.admits clerk (.grouped .folderEdit) ∧ (badPapers.folder 0).state = .opened ∧
      (FirstAt ((planTests badPapers (badPapers.folder 0))[5]).failsAt 2 ∧
        ∀ earlier ∈ (planTests badPapers (badPapers.folder 0)).take 5, ∀ m, ¬earlier.failsAt m)) ∧
    (clashing.admits clerk (.grouped .folderEdit) ∧ (clashing.folder 0).state = .opened ∧
      (∀ test ∈ planTests clashing (clashing.folder 0), ∀ m, ¬test.failsAt m) ∧
      FirstAt (fun j => ∃ i, PairClashes clashing (clashing.folder 0) i j) 1 ∧
      FirstAt (fun i => PairClashes clashing (clashing.folder 0) i 1) 0) ∧
    (∀ s, s = oneProduct ∨ s = unendorsed ∨ s = lapsed →
      s.admits clerk (.grouped .folderEdit) ∧ (s.folder 0).state = .opened ∧ (s.folder 0).second = some 8 ∧
      (∀ test ∈ planTests s (s.folder 0), ∀ m, ¬test.failsAt m) ∧ ∀ i j, ¬PairClashes s (s.folder 0) i j) ∧
    (¬LacksEndorsement oneProduct (oneProduct.folder 0) 0 ∧ ¬EndorsementsLapsed oneProduct (oneProduct.folder 0) 100 0 ∧
      LacksEndorsement oneProduct (oneProduct.folder 0) 8) ∧
    LacksEndorsement unendorsed (unendorsed.folder 0) 0 ∧
    (¬LacksEndorsement lapsed (lapsed.folder 0) 0 ∧ EndorsementsLapsed lapsed (lapsed.folder 0) 100 0) := by
  refine ⟨by simp only [State.admits, State.handles]; decide +kernel,
    ⟨by simp only [State.admits, State.handles]; decide +kernel, by decide +kernel, badPapers_fail⟩,
    ⟨by simp only [State.admits, State.handles]; decide +kernel, by decide +kernel, plan_passes_its_tests (.inl rfl),
      ⟨⟨0, clashing_pair⟩, ?_⟩, ⟨clashing_pair, fun j hj => by omega⟩⟩,
    fun s hs => ⟨?_, ?_, ?_, plan_passes_its_tests (.inr hs), oneProduct_pairs hs⟩, ?_⟩
  · rintro j hj ⟨i, hij, _⟩
    omega
  · rcases hs with rfl | rfl | rfl <;> simp only [State.admits, State.handles] <;> decide +kernel
  · rcases hs with rfl | rfl | rfl <;> decide +kernel
  · rcases hs with rfl | rfl | rfl <;> decide +kernel
  · simp only [LacksEndorsement, EndorsementsLapsed]
    decide +kernel

theorem witness_ReopenAndUnassign :
    rack.admits clerk (.grouped .folderEdit) ∧ rack.admits clerk (.grouped .assign) ∧ 15 < (16 : Byte).toNat ∧
    ((1 : Byte).toNat = (1 : Fin 16).val ∧ (rack.folder 1).state = .papered ∧ (rack.folder 1).state ≠ .assigned) ∧
    ((2 : Byte).toNat = (2 : Fin 16).val ∧ (rack.folder 2).state = .assigned ∧ (rack.folder 2).state ≠ .papered) ∧
    (15 : Byte).toNat = (15 : Fin 16).val := by
  simp only [State.admits, State.handles]
  decide +kernel

theorem witness_AmendOverrideAndFinishComplete :
    (4 : Byte).toNat = (4 : Fin 16).val ∧ rack.admits clerk (.grouped .amend) ∧ (rack.folder 4).state = .amendWait ∧
    ((rack.folder 4).compartments[(0 : Byte).toNat]? = some (held 1203 7600 7645 .loaded (some .amend)) ∧
      rack.fillLimit (held 1203 7600 7645 .loaded (some .amend)) = some 7760 ∧ (7760 : BitVec 16).toNat ≤ 7760) ∧
    rack.admits boss .supervisorOnly ∧
    (rack.admits clerk (.grouped .finish) ∧ (3 : Byte).toNat = (3 : Fin 16).val ∧ (rack.folder 3).state = .loading) ∧
    (leaving.admits clerk (.grouped .finish) ∧ leaving.mc.pendingTarget = some .config) := by
  simp only [State.admits, State.handles]
  decide +kernel

theorem witness_VoidComplete :
    (let level := { rack with dl := { rack.dl with level := 2 } };
      level.dl.level ≤ level.dl.held.length + 1 ∧ ¬rack.dl.level ≤ rack.dl.held.length + 1) ∧
    rack.admits boss (.grouped .voiding) ∧ (3 : Byte).toNat = (3 : Fin 16).val ∧ (rack.folder 3).state ≠ .free ∧
    (rack.folder 3).state ≠ .released ∧ (∃ c ∈ (rack.folder 3).compartments, 0 < c.metered) ∧ rack.logFull = false ∧
    (let last := leaving.setFolder 7 (Folder.free []);
      last.admits boss (.grouped .voiding) ∧ last.mc.pendingTarget = some .config ∧ (last.folder 3).state = .loading ∧
      last.logFull = false ∧ ∀ g, g ≠ 3 → (last.folder g).state ≠ .loading) ∧
    (∃ g, g ≠ 3 ∧ (leaving.folder g).state = .loading) := by
  simp only [State.admits, State.handles]
  decide +kernel

/-- The tables of the rack in CONFIG are in order, too. -/
theorem inOffice_tablesOk : inOffice.TablesOk := ⟨waiting_tablesOk.profiles, waiting_tablesOk.metering, waiting_tablesOk.codeOrder,
  waiting_tablesOk.substances, waiting_tablesOk.substanceCount, waiting_tablesOk.symmetric, waiting_tablesOk.fixedCells,
  waiting_tablesOk.thresholds, waiting_tablesOk.logLevel, waiting_tablesOk.cyclePeriod, waiting_tablesOk.silenceLimit,
  waiting_tablesOk.dayOffset⟩

theorem witness_SubstanceEditsComplete :
    inOffice.TablesOk ∧ inOffice.admits clerk .tableEdit ∧ inOffice.mc.mode = .config ∧ (65535 : BitVec 16) ≠ 0 ∧
    ((15 : Byte).toNat = (15 : Fin 16).val ∧ (7 : Byte).toNat = (7 : Fin 8).val ∧ 500 ≤ (500 : BitVec 16).toNat ∧
      (1000 : BitVec 16).toNat ≤ 1000) ∧
    (inOffice.substance (65535 : BitVec 16).toNat = none ∧ inOffice.gcu.substances.length < 128) ∧
    inOffice.substance 1203 = some ⟨1203, 3, 3, 970⟩ ∧
    (let s := inOffice.setFolder 0 (Folder.free []);
      (s.substance 9001).isSome ∧ s.namedBy 9001 = none) :=
  ⟨inOffice_tablesOk, by simp only [State.admits, State.handles]; decide +kernel⟩

theorem witness_MatrixPairReturnsAffectedFolders :
    inOffice.admits clerk .tableEdit ∧ inOffice.mc.mode = .config ∧ (8 : Byte).toNat = (8 : Fin 16).val ∧
    (3 : Byte).toNat = (3 : Fin 16).val ∧ Ruling.ofCode 2 = some .never ∧ (8 : Fin 16) ≠ 3 ∧ (8 : Fin 16) ≠ 0 ∧ (3 : Fin 16) ≠ 0 ∧
    inOffice.cell 8 3 ≠ .never ∧ (Ruling.ofCode 1 = some .apart ∧ inOffice.cell 8 3 = .apart) ∧
    ((inOffice.folder 1).state = .papered ∧
      (∃ c ∈ (inOffice.folder 1).compartments, (inOffice.product c).map Substance.group = some 3) ∧
      ∃ c ∈ (inOffice.folder 1).compartments, (inOffice.product c).map Substance.group = some 8) := by
  simp only [State.admits, State.handles]
  decide +kernel

theorem witness_SettingEditsComplete :
    inOffice.admits clerk .tableEdit ∧ inOffice.mc.mode = .config ∧
    ((15 : Byte).toNat = (14 : Fin 15).val + 1 ∧ (60000 : BitVec 16).toNat ≤ 60000) ∧
    (let m : MeterSettings := ⟨4, 15, 50, 63, 100, 1000, 200, 2000⟩;
      (1 ≤ m.arms ∧ m.arms ≤ 4) ∧ (1 ≤ m.settleMin ∧ m.settleMin ≤ 15) ∧ m.settleBand ≤ 50 ∧
      (m.settleMin ≤ m.settleMax ∧ m.settleMax ≤ 63) ∧ m.passTenths ≤ 100 ∧ m.passFloor ≤ 1000 ∧
      (m.passTenths ≤ m.amendTenths ∧ m.amendTenths ≤ 200) ∧ (m.passFloor ≤ m.amendFloor ∧ m.amendFloor ≤ 2000)) ∧
    (1 ≤ (1024 : BitVec 16).toNat ∧ (1024 : BitVec 16).toNat ≤ 1024) := by
  simp only [State.admits, State.handles]
  decide +kernel

theorem witness_AckLogAndRightsComplete :
    (waiting.LogOk ∧ waiting.admits clerk (.grouped .logAck) ∧ (4000 : BitVec 32).toNat < waiting.dl.nextSequence) ∧
    rack.admits clerk .read ∧
    (rack.admits boss .supervisorOnly ∧ (1023 : BitVec 16) ≠ 0 ∧ (1023 : BitVec 16).toNat < 1024 ∧
      (1 : Byte) = (if true then 1 else 0) ∧ (0 : Byte) = (if false then 1 else 0)) :=
  ⟨⟨waiting_logOk, by simp only [State.admits, State.handles]; decide +kernel⟩, by simp only [State.admits, State.handles]; decide +kernel⟩

theorem witness_LinkSettingsComplete :
    (inOffice.admits clerk .tableEdit ∧ inOffice.mc.mode = .config ∧ 100 ≤ (2000 : BitVec 16).toNat ∧
      (2000 : BitVec 16).toNat ≤ 2000 ∧ (2000 : BitVec 16).toNat % 50 = 0 ∧ 2 ≤ (64 : Byte).toNat ∧ (64 : Byte).toNat ≤ 64 ∧
      (0x1EF : BitVec 16).toNat < 512 ∧
      ∀ b : Fin 8, hasMember (0x1EF : BitVec 16) b.val = false → ∀ f, (inOffice.folder f).bay ≠ some b) ∧
    (rack.admits clerk (.grouped .nodeAdmin) ∧ (8 : Byte).toNat = (8 : Fin 9).val) := by
  simp only [State.admits, State.handles]
  decide +kernel

/-- An idle port; a command that waits; and, after its handling, a transaction begun before it. -/
theorem witness_PortTransactionsComplete :
    rack.running = true ∧ isOffice (.readTime (clerkAt .oselFalls)) (clerkAt .oselFalls) .readTime ∧
    isOffice (.readTime (clerkAt .oselRises)) (clerkAt .oselRises) .readTime ∧
    (let s := after (.readTime (clerkAt .oselRises)) rack;
      let t := after (.readTime (clerkAt .handled)) (after (.readMode (clerkAt .oselFalls)) s);
      s.underway.risen = some ⟨now, now⟩ ∧ now ≤ s.tc.clock ∧ s.tc.clock ≤ now + 1 ∧ s.underway.summary = some 0x80 ∧
        s.handles (clerkAt .handled) ∧ ¬rack.handles (clerkAt .handled) ∧
        t.running = true ∧ t.underway.refused = true ∧ t.underway.risen = none) ∧
    (rack.underway.summary = none ∧ rack.underway.risen = none ∧ rack.underway.refused = false ∧ rack.handles clerk) :=
  ⟨by decide, ⟨_, rfl⟩, ⟨_, rfl⟩, by simp only [State.handles]; decide +kernel, by simp only [State.handles]; decide⟩

theorem witness_AttentionCommandsComplete :
    rack.admits clerk .portCommand ∧ (255 : BitVec 16).toNat < 256 ∧
    (hasMember State.reset.op.flags 0 = true ∧ hasMember State.reset.op.enables 0 = true) := by
  simp only [State.admits, State.handles]
  decide +kernel

theorem witness_RequestModeFollowsItsTable :
    let waitingForMode := { rack with mc := { rack.mc with pendingTarget := some .listen } };
    let idle := { rack with folders := State.reset.folders };
    (inOffice.admits clerk .modeRequest ∧ inOffice.mc.mode ≠ .run ∧ inOffice.mc.pendingTarget = none ∧
      Mode.ofCode 1 = some .listen ∧ Mode.ofCode 2 = some .run ∧ inOffice.tc.clockSet = true) ∧
    (State.reset.admits clerk .modeRequest ∧ State.reset.mc.mode ≠ .run ∧ State.reset.tc.clockSet = false) ∧
    (rack.admits clerk .modeRequest ∧ rack.mc.mode = .run ∧ rack.mc.pendingTarget = none ∧ (rack.folder 3).state = .loading) ∧
    (idle.admits clerk .modeRequest ∧ idle.mc.mode = .run ∧ idle.mc.pendingTarget = none ∧
      ∀ f, (idle.folder f).state ≠ .loading) ∧
    (waitingForMode.admits clerk .modeRequest ∧ waitingForMode.mc.mode = .run ∧ waitingForMode.mc.pendingTarget ≠ none) := by
  simp only [State.admits, State.handles]
  decide +kernel

theorem witness_ColdStartsGiveTheColdState :
    rack.pins.resetLow = false ∧ resetHeld.pins.resetLow = true ∧
    ((after .coldStart resetHeld).pins.powered = true ∧ (after .coldStart resetHeld).pins.startOwed = some .cold) ∧
    (let taken := after (.readTime (clerkAt .oselRises)) rack;
      taken.underway.summary.isSome = true ∧ taken.underway.risen.isNone = false) ∧
    inOffice.admits boss .supervisorOnly ∧ inOffice.mc.mode = .config := by
  simp only [State.admits, State.handles]
  decide +kernel

theorem witness_WarmStartAndPowerEventsComplete :
    unpowered.pins.powered = false ∧ (resetLow.pins.powered = true ∧ resetLow.pins.startOwed ≠ some .cold) ∧
    unpowered.pins.resetLow = false ∧ resetHeld.pins.resetLow = true ∧ (jumping.account 63).state = .free ∧
    ((jumping.account 5).state ≠ .free ∧ (jumping.account 5).status = .drive) ∧
    ((jumping.account 12).state ≠ .free ∧ (jumping.account 12).status = .duty ∧ (jumping.account 12).shiftStart = some 200) ∧
    ((rack.folder 3).compartments.any Compartment.inProgress = true ∧ rack.today = rack.tc.treatedDay) ∧
    (let s := { turning with tc := { turning.tc with clock := turning.tc.clock + 1 } };
      s.today ≠ s.tc.treatedDay ∧ (s.profile .a).pendingValid = true) := by decide +kernel

theorem witness_CardComplete :
    (rack.servesFrame (fromNode 1).node (fromNode 1).moment ∧ bayOfNode (fromNode 1).node = some 1 ∧ rack.folderOfBay 1 = some 2 ∧
      rack.findCard (102 : BitVec 32).toNat = some 2 ∧ (rack.folder 2).tanker = (40217 : BitVec 32).toNat ∧
      (2 : Fin 64) ∈ (rack.folder 2).drivers ∧ (rack.account 2).state = .active ∧ (rack.folder 2).state = .assigned ∧
      ¬(rack.mc.pendingTarget ≠ none ∨ (rack.arrivalPending (fromNode 1).node = true ∧ rack.mc.mode ≠ .run))) ∧
    (let s := after (.voidFolder boss 3) (after (.card (arriving 1) 40217 102) lastLoading);
      s.servesFrame (fromNode 1).node (fromNode 1).moment ∧ s.folderOfBay 1 = some 2 ∧
      s.findCard (102 : BitVec 32).toNat = some 2 ∧ (s.folder 2).tanker = (40217 : BitVec 32).toNat ∧
      (2 : Fin 64) ∈ (s.folder 2).drivers ∧ (s.account 2).state = .active ∧ (s.folder 2).state = .assigned ∧
      s.mc.pendingTarget = none ∧ s.arrivalPending (fromNode 1).node = true ∧ s.mc.mode ≠ .run) ∧
    (rack.servesFrame (fromNode 2).node (fromNode 2).moment ∧ bayOfNode (fromNode 2).node = some 2 ∧ rack.folderOfBay 2 = some 3 ∧
      rack.findCard (108 : BitVec 32).toNat = some 8 ∧ (rack.folder 3).tanker = (40217 : BitVec 32).toNat ∧
      (8 : Fin 64) ∈ (rack.folder 3).drivers ∧ (rack.account 8).state = .active ∧ (rack.folder 3).state = .loading) := by
  simp only [State.servesFrame]
  decide +kernel

theorem witness_BayRequestsComplete :
    rack.servesFrame (fromNode 2).node (fromNode 2).moment ∧ rack.loadsAt (fromNode 2) 2 3 3 ∧
    ((rack.folder 3).compartments[(0 : Byte).toNat]? = some (held 1203 7600 0 .planned none) ∧ rack.mc.pendingTarget = none ∧
      ((rack.folder 3).compartments.filter Compartment.inProgress).length < rack.mr.arms) ∧
    (∃ c, (rack.folder 3).compartments[(1 : Byte).toNat]? = some c ∧ c.inProgress = true ∧ c.loading = .flowing ∧
      c.metered ≤ (7700 : BitVec 16).toNat ∧ (7699 : BitVec 16).toNat < c.metered) ∧
    (∃ c, (rack.folder 3).compartments[(2 : Byte).toNat]? = some c ∧ c.loading = .settled) ∧
    (∃ c, (rack.folder 3).compartments[(3 : Byte).toNat]? = some c ∧ c.loading = .permitted) ∧
    (rack.servesFrame (fromNode 7).node (fromNode 7).moment ∧ rack.loadsAt (fromNode 7) 7 7 7 ∧
      (rack.folder 7).compartments.all (fun c => !c.inProgress) = true) := by
  simp only [State.servesFrame, State.loadsAt]
  exact ⟨by decide +kernel, by decide +kernel, by decide +kernel,
    ⟨{ held 1203 7600 7700 .flowing none with lastReport := some (now - 1) }, by decide +kernel⟩,
    ⟨{ held 1993 5500 5510 .settled none with settleCount := 3, stoppedReports := 4 }, by decide +kernel⟩,
    ⟨held 1203 7600 0 .permitted none, by decide +kernel⟩, by decide +kernel⟩

theorem witness_GateRequestsComplete :
    rack.servesFrame (fromNode 8).node (fromNode 8).moment ∧ (fromNode 8).node = 8 ∧
    ((108 : BitVec 32) ≠ 0 ∧ rack.findCard (108 : BitVec 32).toNat = some 8) ∧
    ((5 : Byte).toNat = (5 : Fin 16).val ∧ hasMember (0x0108 : BitVec 16) 0 = false ∧ (rack.folder 5).state = .ready ∧
      releaseReasons rack (rack.folder 5) 0x0108 (rack.frameArrival 8 / 60) = [] ∧
      releaseReasons rack (rack.folder 5) 0xFFFE (rack.frameArrival 8 / 60) ≠ []) ∧
    ((6 : Byte).toNat = (6 : Fin 16).val ∧ (rack.folder 6).state = .released) := by
  simp only [State.servesFrame]
  decide +kernel

theorem witness_SlotHealthComplete :
    (rack.running = true ∧ rack.listens 2 = true ∧ (fromNode 2).node = 2 ∧ (fromNode 2).moment = .slotEnd) ∧
    (linkParts (.idle (arriving 2)) = some (arriving 2, .idle, []) ∧ (arriving 2).node = 2 ∧
      (arriving 2).moment = .received) ∧
    (let s := rack.frameReceived 2;
      s.underway.frame = some ⟨2, now, .run, false⟩ ∧ ∀ a, s.underway.frame = some a → a.node ≠ 6) ∧
    (let s := rack.setNode 2 ⟨.isolated, 255, 0, none⟩;
      s.running = true ∧ s.listens 2 = false) ∧
    (([0x00] : List Byte).head? = some 0x00 ∧ inOffice.arrivalMode 2 ≠ .run) ∧
    16 ≤ (List.replicate 16 (⟨2, 17, .permit, .none, .two⟩ : ReplyRecord)).length + 0 ∧
    (rack.servesFrame 2 .slotEnd ∧ ([0x09] : List Byte).head? ≠ some 0x00) ∧
    (bayOfNode 2 = some 2 ∧ (⟨.absent, 0, 8, none⟩ : NodeEntry).state = .absent ∧ (rack.node 2).state ≠ .absent ∧
      (rack.folder 3).state = .loading ∧ (rack.folder 3).bay = some 2 ∧ (∀ g, g ≠ 3 → (rack.folder g).bay ≠ some 2) ∧
      (rack.folder 3).compartments.any Compartment.inProgress = true) := by
  simp only [State.servesFrame]
  decide +kernel

theorem witness_BeaconComplete : rack.running = true ∧ rack.owedStops ≠ [] := by decide +kernel

end Sys2Proof.Tests
end

section
/-! PROOFS. Crediting: which bucket each day's minutes go to, and how many they are (R14 to R16). -/

namespace Sys2Proof.Machine

/-! ## The minutes of a day (R45) -/

/-- A day's minutes are those from its first to before the next day's first. -/
theorem dayOf_eq_iff {offset m day : Nat} (h : offset ≤ 1439) :
    dayOf offset m = day ↔ dayStart offset day ≤ m ∧ m < dayStart offset (day + 1) := by
  unfold dayOf dayStart
  omega

theorem dayOf_mono {offset m n : Nat} (h : m ≤ n) : dayOf offset m ≤ dayOf offset n :=
  Nat.div_le_div_right (by omega)

/-- How many numbers below `b` lie from `lo` to before `hi`. -/
theorem length_filter_range (lo hi b : Nat) :
    ((List.range b).filter (fun m => decide (lo ≤ m) && decide (m < hi))).length = min b hi - lo := by
  induction b with
  | zero => simp
  | succ b ih =>
    rw [List.range_succ, List.filter_append, List.length_append, ih]
    by_cases hb : lo ≤ b ∧ b < hi
    · rw [List.filter_cons_of_pos (by simpa using hb)]
      simp only [List.filter_nil, List.length_singleton]
      omega
    · rw [List.filter_cons_of_neg (by simpa using hb)]
      simp only [List.filter_nil, List.length_nil]
      omega

/-- A day's piece of an interval is the count of its minutes of that day (R15). -/
theorem pieceLength_eq_count {offset : Nat} (h : offset ≤ 1439) (a b day : Nat) :
    pieceLength offset a b day
      = ((List.range b).filter (fun m => decide (a ≤ m) && dayOf offset m == day)).length := by
  rw [pieceLength, ← length_filter_range]
  congr 2
  funext m
  rw [Bool.eq_iff_iff]
  simp only [Bool.and_eq_true, decide_eq_true_eq, beq_iff_eq, dayOf_eq_iff h]
  omega

/-! ## One piece -/

/-- A bucket with `n` minutes of a day added: emptied first if it bore another stamp, saturating at 1440 (R15, R16). -/
def Bucket.added (driving : Bool) (day n : Nat) (held : Bucket) : Bucket :=
  let b : Bucket := if held.day = day then held else ⟨day, 0, 0⟩
  ⟨day, min 1440 (b.duty + n), if driving then min 1440 (b.drive + n) else b.drive⟩

theorem addPiece_self (driving : Bool) (day n : Nat) (buckets : Vector Bucket 8) :
    (addPiece driving day n buckets)[Fin.ofNat 8 day] = Bucket.added driving day n buckets[Fin.ofNat 8 day] := by
  have stamp : (if buckets[Fin.ofNat 8 day].day = day then buckets[Fin.ofNat 8 day]
      else (⟨day, 0, 0⟩ : Bucket)).day = day := by
    split <;> simp_all
  simp only [addPiece, Bucket.added, Fin.getElem_fin, Vector.getElem_set_self]
  simp only [Fin.getElem_fin] at stamp
  rw [stamp]

theorem addPiece_ne (driving : Bool) (day n : Nat) (buckets : Vector Bucket 8) {k : Fin 8} (h : day % 8 ≠ k.val) :
    (addPiece driving day n buckets)[k] = buckets[k] := by
  simp [addPiece, h]

/-! ## The pieces of an interval -/

/-- A bucket none of the days falls into stays. -/
theorem creditDays_untouched (offset a b : Nat) (driving : Bool) {k : Fin 8} (count : Nat) :
    ∀ (day : Nat) (buckets : Vector Bucket 8), (∀ d, day ≤ d → d < day + count → d % 8 ≠ k.val) →
      (creditDays offset a b driving count day buckets)[k] = buckets[k] := by
  induction count with
  | zero => intro day buckets _; rfl
  | succ count ih =>
    intro day buckets h
    rw [creditDays, ih _ _ fun d h1 h2 => h d (by omega) (by omega)]
    exact addPiece_ne driving day _ buckets (h day (by omega) (by omega))

/-- Of at most eight days in a row each adds its piece to the bucket as it was. -/
theorem creditDays_touched (offset a b : Nat) (driving : Bool) {d : Nat} (count : Nat) :
    ∀ (day : Nat) (buckets : Vector Bucket 8), count ≤ 8 → day ≤ d → d < day + count →
      (creditDays offset a b driving count day buckets)[Fin.ofNat 8 d]
        = Bucket.added driving d (pieceLength offset a b d) buckets[Fin.ofNat 8 d] := by
  induction count with
  | zero => intro day buckets _ h1 h2; omega
  | succ count ih =>
    intro day buckets hc h1 h2
    rw [creditDays]
    by_cases hd : d = day
    · subst hd
      rw [creditDays_untouched offset a b driving count (d + 1) _ fun e _ _ => by simp only [Fin.val_ofNat]; omega]
      exact addPiece_self driving d _ buckets
    · rw [ih (day + 1) _ (by omega) (by omega) (by omega)]
      rw [addPiece_ne driving day _ buckets (by simp only [Fin.val_ofNat]; omega)]

end Sys2Proof.Machine

open Sys2Proof Sys2Proof.Machine in
/-- Settles O22: the pieces of at most eight days in a row fall into different buckets, and a piece is as long as the
day has minutes in the interval. -/
theorem creditGivesEachDayItsMinutes : Obligations.CreditGivesEachDayItsMinutes := by
  intro offset a b driving buckets hoff hab hdays
  have order := dayOf_mono (offset := offset) (show a ≤ b - 1 by omega)
  rw [creditBuckets, if_pos hab]
  refine ⟨fun day h1 h2 => ?_, fun k hk => ?_⟩
  · rw [creditDays_touched offset a b driving _ _ buckets (by omega) h1 (by omega), pieceLength_eq_count hoff]
    rfl
  · exact creditDays_untouched offset a b driving _ _ buckets fun d h1 h2 => hk d h1 (by omega)
end

section
/-! PROOFS. What a status change leaves in the record: the credit and the four shift rules, each as one update (R13 to
R17). -/

namespace Sys2Proof.Machine

/-! ## Flags -/

theorem hasMember_withoutMember {n : Nat} (set : MemberSet n) (k j : Nat) :
    hasMember (withoutMember set k) j = (hasMember set j && !decide (j = k)) := by
  simp only [hasMember, withoutMember, BitVec.getLsbD_and, BitVec.getLsbD_not, BitVec.getLsbD_twoPow]
  by_cases hj : j < n
  · simp only [hj, decide_true, Bool.true_and]
    congr 1
    rw [Bool.eq_iff_iff]
    simp only [Bool.not_eq_true', Bool.and_eq_false_iff, decide_eq_false_iff_not]
    omega
  · simp [BitVec.getLsbD_of_ge set j (by omega)]

theorem AlarmFlag.bit_inj {f k : AlarmFlag} : f.bit = k.bit ↔ f = k := by
  cases f <;> cases k <;> decide

/-! ## The credit (R14, R16) -/

/-- The buckets after the credit of the open interval: none in REST. -/
def creditedBuckets (offset b : Nat) (a : Account) : Vector Bucket 8 :=
  match a.status with
  | .rest => a.buckets
  | .duty => creditBuckets offset (minuteOf a.since) b false a.buckets
  | .drive => creditBuckets offset (minuteOf a.since) b true a.buckets

/-- A drive figure after the credit of the open interval: it grows in DRIVE alone. -/
def grownDrive (b : Nat) (a : Account) (n : Nat) : Nat :=
  if a.status = .drive then min 65535 (n + (b - minuteOf a.since)) else n

theorem creditAccount_eq (offset b : Nat) (a : Account) :
    creditAccount offset b a = { a with
      buckets := creditedBuckets offset b a
      shiftDrive := grownDrive b a a.shiftDrive
      driveSinceBreak := grownDrive b a a.driveSinceBreak } := by
  unfold creditAccount creditedBuckets grownDrive saturateMinutes
  cases h : a.status with
  | rest => simp only [reduceCtorEq, if_false]; rw [← h]
  | duty => simp only [reduceCtorEq, if_false]
  | drive => simp only [if_true]

/-! ## The shift rules (R17) -/

/-- A rest of at least R_min ends at minute `e`. -/
def Account.rested (l : Limits) (e : Nat) (a : Account) : Bool :=
  decide (a.status = .rest) && decide (l.rMin ≤ e - minuteOf a.since)

theorem rested_iff {l : Limits} {e : Nat} {a : Account} :
    a.rested l e = true ↔ a.status = .rest ∧ l.rMin ≤ e - minuteOf a.since := by
  simp [Account.rested]

/-- DRIVE is entered at minute `e` after a non-drive run of at least Brk_min. -/
def Account.breaks (l : Limits) (new : Status) (e : Nat) (a : Account) : Bool :=
  decide (new = .drive) && a.nonDriveSince.any (fun n => decide (l.brkMin ≤ e - n))

theorem breaks_iff {l : Limits} {new : Status} {e : Nat} {a : Account} :
    a.breaks l new e = true ↔ new = .drive ∧ ∃ n, a.nonDriveSince = some n ∧ l.brkMin ≤ e - n := by
  simp [Account.breaks, Option.any_eq_true]

theorem leavingRest_eq (l : Limits) (e : Nat) (a : Account) :
    leavingRest l e a = { a with
      shiftStart := if a.rested l e then none else a.shiftStart
      shiftDrive := if a.rested l e then 0 else a.shiftDrive
      driveSinceBreak := if a.rested l e then 0 else a.driveSinceBreak
      alarms := if a.rested l e then withoutMember a.alarms AlarmFlag.overWindow.bit else a.alarms } := by
  unfold leavingRest
  by_cases h : a.rested l e = true
  · simp only [if_pos h, if_pos (rested_iff.mp h)]
    rfl
  · simp only [if_neg h, if_neg (mt rested_iff.mpr h)]

theorem enteringDrive_eq (l : Limits) (new : Status) (e : Nat) (a : Account) :
    enteringDrive l new e a = { a with
      driveSinceBreak := if a.breaks l new e then 0 else a.driveSinceBreak } := by
  unfold enteringDrive
  split
  · rename_i n hn
    simp only [Account.breaks, hn, decide_true, Option.any_some, Bool.true_and, decide_eq_true_eq]
    split <;> rw [← hn]
  · rename_i hno
    have : ¬a.breaks l _ e = true := fun hb => by
      obtain ⟨hd, n, hn, _⟩ := breaks_iff.mp hb
      exact hno n hd hn
    simp only [if_neg this]

theorem openingShift_eq (new : Status) (e : Nat) (a : Account) :
    openingShift new e a = { a with
      shiftStart := if new = .rest then a.shiftStart else some (a.shiftStart.getD e) } := by
  unfold openingShift
  by_cases hr : new = .rest
  · simp [hr]
  · cases hs : a.shiftStart with
    | none => simp [hr]
    | some m => rw [if_neg (by simp), if_neg hr, Option.getD_some, ← hs]

theorem leavingDrive_eq (e : Nat) (a : Account) :
    leavingDrive e a = { a with
      nonDriveSince := if a.status = .drive then some e else a.nonDriveSince
      alarms :=
        if a.status = .drive then withoutMember (withoutMember a.alarms AlarmFlag.warn.bit) AlarmFlag.overRun.bit
        else a.alarms } := by
  unfold leavingDrive
  split <;> rfl

/-- The shift start a status change leaves: the shift is closed by a rest, and opened on leaving REST (R17). -/
def Account.shiftStartAfter (l : Limits) (new : Status) (e : Nat) (a : Account) : Option Nat :=
  let held := if a.rested l e then none else a.shiftStart
  if new = .rest then held else some (held.getD e)

/-- The flags a status change leaves: OVER_WINDOW cleared by a rest, WARN and OVER_RUN on leaving DRIVE (R17). -/
def Account.alarmsAfter (l : Limits) (e : Nat) (a : Account) : MemberSet 5 :=
  let left := if a.rested l e then withoutMember a.alarms AlarmFlag.overWindow.bit else a.alarms
  if a.status = .drive then withoutMember (withoutMember left AlarmFlag.warn.bit) AlarmFlag.overRun.bit else left

/-- A status change as one update of the record (R13 to R17). -/
theorem changedRecord_eq (offset : Nat) (l : Limits) (new : Status) (time : Nat) (a : Account) :
    changedRecord offset l new time a = { a with
      status := new
      since := time
      nonDriveSince :=
        if new = .drive then none else if a.status = .drive then some (minuteOf time) else a.nonDriveSince
      shiftStart := a.shiftStartAfter l new (minuteOf time)
      shiftDrive := if a.rested l (minuteOf time) then 0 else grownDrive (minuteOf time) a a.shiftDrive
      driveSinceBreak :=
        if a.breaks l new (minuteOf time) then 0
        else if a.rested l (minuteOf time) then 0 else grownDrive (minuteOf time) a a.driveSinceBreak
      buckets := creditedBuckets offset (minuteOf time) a
      alarms := a.alarmsAfter l (minuteOf time) } := by
  rw [changedRecord, shiftRules, creditAccount_eq, leavingRest_eq, enteringDrive_eq, openingShift_eq, leavingDrive_eq,
    writeStatus]
  rfl

theorem hasMember_alarmsAfter (l : Limits) (e : Nat) (a : Account) (f : AlarmFlag) :
    hasMember (a.alarmsAfter l e) f.bit = (a.hasAlarm f && !decide (f = .overWindow ∧ a.rested l e = true)
      && !decide ((f = .warn ∨ f = .overRun) ∧ a.status = .drive)) := by
  unfold Account.alarmsAfter
  by_cases hr : a.rested l e = true <;> by_cases hd : a.status = .drive <;>
    simp only [hr, hd, if_true, if_false, hasMember_withoutMember, AlarmFlag.bit_inj, Account.hasAlarm, and_true,
      and_false, decide_false, Bool.not_false, Bool.and_true, Bool.false_eq_true, Bool.decide_or, Bool.not_or,
      Bool.and_assoc]

end Sys2Proof.Machine

open Sys2Proof Sys2Proof.Machine in
/-- Settles O23: the credit and the four shift rules make one update of the record (`changedRecord_eq`), whose fields
are read off in each case. -/
theorem shiftRulesAtAStatusChange : Obligations.ShiftRulesAtAStatusChange := by
  intro offset l new time a e rested driven broken t
  have rested_eq : a.rested l e = true ↔ rested := rested_iff
  have broken_eq : a.breaks l new e = true ↔ broken := breaks_iff
  have ht : t = _ := changedRecord_eq offset l new time a
  rw [show minuteOf time = e from rfl] at ht
  have grown : ∀ n, grownDrive e a n = if a.status = .drive then min 65535 (n + driven) else n := fun n => by
    unfold grownDrive
    split
    · rename_i hd; simp only [driven, if_pos hd]; rfl
    · rfl
  refine ⟨by rw [ht], by rw [ht], ?_, by rw [ht], fun hr => ?_, fun hr => ?_, fun hb => ?_, fun hr hb => ?_,
    fun f => ?_, by rw [ht], by rw [ht], by rw [ht], by rw [ht], by rw [ht], by rw [ht], by rw [ht]⟩
  · rw [ht]
    simp only [creditedBuckets]
    cases a.status <;> rfl
  · have r := rested_eq.mpr hr
    refine ⟨?_, by simp only [ht, if_pos r], ?_⟩
    · simp only [ht, Account.shiftStartAfter, if_pos r, Option.getD_none]
    · simp only [ht, if_pos r, ite_self]
  · have r := mt rested_eq.mp hr
    refine ⟨by simp only [ht, Account.shiftStartAfter, if_neg r], ?_⟩
    simp only [ht, if_neg r, grown]
  · simp only [ht, if_pos (broken_eq.mpr hb)]
  · simp only [ht, if_neg (mt broken_eq.mp hb), if_neg (mt rested_eq.mp hr), grown]
  · rw [Account.hasAlarm, ht, hasMember_alarmsAfter]
    simp only [rested_iff]
    rfl
end

section
/-! PROOFS. The view at a minute and the figures read from it (R22 to R31), and the reads that give them. -/

namespace Sys2Proof.Machine

/-! ## The view (R22, R25, R26) -/

theorem lazyBreak_iff {l : Limits} {a : Account} {t : Nat} :
    lazyBreak l a t = true ↔ a.status ≠ .drive ∧ ∃ n, a.nonDriveSince = some n ∧ l.brkMin ≤ t - n := by
  unfold lazyBreak
  cases a.status <;> cases a.nonDriveSince <;> simp

theorem lazyRest_iff {l : Limits} {a : Account} {t : Nat} :
    lazyRest l a t = true ↔ a.status = .rest ∧ l.rMin ≤ t - minuteOf a.since := by
  simp [lazyRest]

/-- The view as one update of the record: the open interval credited, the lazy break, the lazy rest. -/
theorem viewAt_eq (offset : Nat) (l : Limits) (t : Nat) (a : Account) :
    viewAt offset l t a = { a with
      buckets := creditedBuckets offset t a
      shiftStart := if lazyRest l a t then none else a.shiftStart
      shiftDrive := if lazyRest l a t then 0 else grownDrive t a a.shiftDrive
      driveSinceBreak := if lazyRest l a t || lazyBreak l a t then 0 else grownDrive t a a.driveSinceBreak } := by
  unfold viewAt
  rw [creditAccount_eq]
  cases lazyRest l a t <;> cases lazyBreak l a t <;> rfl

/-! ## The cycle duty (R29) -/

theorem toList_eq_map_finRange {α : Type} {n : Nat} (v : Vector α n) :
    v.toList = (List.finRange n).map (fun k => v[k]) :=
  List.ext_getElem (by simp) fun i _ _ => by simp

theorem sum_duty_filter (p : Bucket → Bool) (l : List Bucket) :
    ((l.filter p).map Bucket.duty).sum = (l.map (fun b => if p b then b.duty else 0)).sum := by
  induction l with
  | nil => rfl
  | cons b rest ih =>
    rw [List.map_cons, List.sum_cons, ← ih]
    by_cases hb : p b = true
    · rw [List.filter_cons_of_pos hb, List.map_cons, List.sum_cons, if_pos hb]
    · rw [List.filter_cons_of_neg hb, if_neg hb, Nat.zero_add]

theorem cycleDutyOf_eq (today : Nat) (buckets : Vector Bucket 8) :
    cycleDutyOf today buckets
      = ((List.finRange 8).map (fun k => if buckets[k].counted today then buckets[k].duty else 0)).sum := by
  rw [cycleDutyOf, sum_duty_filter, toList_eq_map_finRange, List.map_map]
  rfl

theorem counted_iff {today : Nat} {b : Bucket} :
    b.counted today = true ↔ 1 ≤ b.day ∧ today ≤ b.day + 7 ∧ b.day ≤ today := by
  simp [Bucket.counted, and_assoc]

/-! ## The figures (R27 to R31) -/

variable (offset : Nat) (l : Limits) (asked : Nat) (a : Account)

theorem figuresOf_a1 : (figuresOf offset l asked a).a1 = (l.dMax : Int) -
    (if lazyRest l a (figureMinute a asked) then 0 else grownDrive (figureMinute a asked) a a.shiftDrive : Nat) := by
  simp only [figuresOf, viewAt_eq]

theorem figuresOf_viewShift : (figuresOf offset l asked a).viewShift =
    if lazyRest l a (figureMinute a asked) then none else a.shiftStart := by
  simp only [figuresOf, viewAt_eq]

theorem figuresOf_a2 : (figuresOf offset l asked a).a2 =
    windowFigure l (figureMinute a asked) (if lazyRest l a (figureMinute a asked) then none else a.shiftStart) := by
  simp only [figuresOf, viewAt_eq]

theorem figuresOf_a3 : (figuresOf offset l asked a).a3 = (l.bMax : Int) -
    (if lazyRest l a (figureMinute a asked) || lazyBreak l a (figureMinute a asked) then 0
      else grownDrive (figureMinute a asked) a a.driveSinceBreak : Nat) := by
  simp only [figuresOf, viewAt_eq]

theorem figuresOf_cycleDuty : (figuresOf offset l asked a).cycleDuty =
    cycleDutyOf (dayOf offset (figureMinute a asked)) (creditedBuckets offset (figureMinute a asked) a) := by
  simp only [figuresOf, viewAt_eq]

/-- The three allowances from the four figures (R30, R31). -/
theorem figuresOf_allowances :
    let g := figuresOf offset l asked a
    (g.shiftAllowance : Int) = max 0 (min g.a1 (min g.a2 g.a4)) ∧
      (g.runAllowance : Int) = max 0 (min (g.shiftAllowance : Int) g.a3) ∧ (g.cycleRoom : Int) = max 0 g.a4 := by
  have shift : ∀ z : Int, ((max 0 z).toNat : Int) = max 0 z := fun z => Int.toNat_of_nonneg (Int.le_max_left 0 z)
  refine ⟨shift _, ?_, shift _⟩
  simp only [figuresOf, shift]

/-- No allowance exceeds the daily limit, nor the run allowance the shift allowance. -/
theorem figuresOf_bounds :
    (figuresOf offset l asked a).runAllowance ≤ (figuresOf offset l asked a).shiftAllowance ∧
      (figuresOf offset l asked a).shiftAllowance ≤ l.dMax := by
  obtain ⟨hs, hr, -⟩ := figuresOf_allowances offset l asked a
  have h1 := figuresOf_a1 offset l asked a
  omega

/-! ## The reads (R4, R38, R39, R41, R61) -/

variable {s : State} {o : OfficeFrame}

theorem findCard_completes {card : BitVec 32} {i : Fin 64} (h : s.admits o .read) (real : card ≠ 0)
    (held : (s.account i).state ≠ .free) (own : (s.account i).card = some card.toNat)
    (first : ∀ j, j < i → (s.account j).state ≠ .free → (s.account j).card ≠ some card.toNat) :
    exec (.findCard o card) s = answersOk .findCard o (byte1 i.val ++ byte1 (s.account i).state.code)
      (seen .findCard o s) := by
  have found : s.findCard card.toNat = some i :=
    lowest_eq_some.mpr ⟨by simp [held, own], fun j hj => by simpa using first j hj⟩
  refine officeCommand_ok h ?_
  rw [findCardAnswer, if_neg real, findCard_seen, found]
  rfl

theorem readProfile_completes {letter : Byte} {p : ProfileLetter} (h : s.admits o .read)
    (hp : ProfileLetter.ofCode letter = some p) :
    exec (.readProfile o letter) s = answersOk .readProfile o
      ((s.profile p).active.bytes ++ byteOfBool (s.profile p).pendingValid ++ (s.profile p).pendingCopy.bytes)
      (seen .readProfile o s) := by
  refine officeCommand_ok h ?_
  simp [readProfileAnswer, hp]

theorem readAllowance_completes {index : Byte} {i : Fin 64} (h : s.admits o .read) (hi : index.toNat = i.val)
    (held : (s.account i).state ≠ .free) :
    exec (.readAllowance o index) s = answersOk .readAllowance o
      ((s.figures i (minuteOf s.officeArrival)).bytes (s.account i).profile) (seen .readAllowance o s) := by
  refine officeCommand_ok h ?_
  simp [readAllowanceAnswer, indexOf_some.mpr hi, held]

theorem hoursCheck_completes {folder : Byte} {f : Fin 16} (h : s.admits o .read) (hf : folder.toNat = f.val)
    (held : (s.folder f).state ≠ .free) :
    exec (.hoursCheck o folder) s = answersOk .hoursCheck o
      ((hoursTest s (s.folder f) (minuteOf s.officeArrival)).bytes (minuteOf s.officeArrival))
      (seen .hoursCheck o s) := by
  refine officeCommand_ok h ?_
  simp [hoursCheckAnswer, indexOf_some.mpr hf, held, hoursTest_seen]

theorem readAlarms_completes {position : Byte} (h : s.admits o .read) (hp : position.toNat ≤ 63) :
    exec (.readAlarms o position) s = answersOk .readAlarms o
      (byte1 s.hu.alarms.length ++ ((s.hu.alarms.drop position.toNat).take 16).flatMap AlarmEntry.bytes)
      (seen .readAlarms o s) := by
  refine officeCommand_ok h ?_
  simp [readAlarmsAnswer, Nat.not_lt.mpr hp]

end Sys2Proof.Machine

open Sys2Proof Sys2Proof.Machine in
/-- Settles O35: the figures are those of the view as one update of the record (`viewAt_eq`), and each read answers from
the state its owner meets. -/
theorem accountAndHoursReadsComplete : Obligations.AccountAndHoursReadsComplete := by
  refine fun s => ⟨fun i asked => ?_, fun o h => ⟨
    fun card i real held own first => findCard_completes h real held own first,
    fun letter p hp => readProfile_completes h hp, fun index i hi held => readAllowance_completes h hi held,
    fun folder f hf held => hoursCheck_completes h hf held, fun position hp => readAlarms_completes h hp⟩⟩
  intro a l since t today broken rested grown buckets counted g
  have hrest : lazyRest l a t = true ↔ rested := lazyRest_iff
  have hbreak : lazyBreak l a t = true ↔ broken := lazyBreak_iff
  have h1 := figuresOf_a1 s.tc.dayOffset l asked a
  have h2 := figuresOf_a2 s.tc.dayOffset l asked a
  have h3 := figuresOf_a3 s.tc.dayOffset l asked a
  have hshift := figuresOf_viewShift s.tc.dayOffset l asked a
  obtain ⟨hs, hr, hc⟩ := figuresOf_allowances s.tc.dayOffset l asked a
  obtain ⟨hrun, hmax⟩ := figuresOf_bounds s.tc.dayOffset l asked a
  rw [show figureMinute a asked = t from rfl] at h1 h2 h3 hshift
  refine ⟨rfl, rfl, fun r => ?_, fun r => ?_, hbreak, hrest, ?_, rfl, hs, hr, hc, hrun, hmax⟩
  · have r := hrest.mpr r
    simp only [r, if_true, Bool.true_or, Int.natCast_zero, Int.sub_zero, windowFigure] at h1 h2 h3 hshift
    exact ⟨h1, h2, h3, hshift⟩
  · have r := Bool.eq_false_iff.mpr (mt hrest.mp r)
    simp only [r, Bool.false_eq_true, if_false, Bool.false_or] at h1 h2 h3 hshift
    refine ⟨h1, hshift, fun start hstart => ?_, fun closed => ?_, fun b => ?_, fun b => ?_⟩
    · rw [hstart] at h2; exact h2
    · rw [closed] at h2; exact h2
    · rw [if_pos (hbreak.mpr b), Int.natCast_zero, Int.sub_zero] at h3; exact h3
    · rw [if_neg (mt hbreak.mp b)] at h3; exact h3
  · have duty := figuresOf_cycleDuty s.tc.dayOffset l asked a
    rw [cycleDutyOf_eq] at duty
    have same : creditedBuckets s.tc.dayOffset t a = buckets := by
      simp only [creditedBuckets, buckets]
      cases a.status <;> rfl
    rw [show figureMinute a asked = t from rfl, same] at duty
    simp only [counted_iff] at duty
    exact duty
end

section
/-! PROOFS. What the records' invariant says of one folder alone, and of the Limit Alarm List. -/

namespace Sys2Proof.Machine

/-! ## The Limit Alarm List in order (R54) -/

theorem AlarmEntry.before_iff {e x : AlarmEntry} :
    e.before x = true ↔ e.due < x.due ∨ (e.due = x.due ∧ e.account < x.account) := by
  simp [AlarmEntry.before]

theorem AlarmEntry.before_trans {e x y : AlarmEntry} (h : e.before x = true) (k : x.before y = true) :
    e.before y = true := by
  rw [AlarmEntry.before_iff] at *
  omega

/-- Of two entries of different accounts one stands before the other. -/
theorem AlarmEntry.before_of_not {e x : AlarmEntry} (h : ¬e.before x = true) (hne : x.account ≠ e.account) :
    x.before e = true := by
  rw [AlarmEntry.before_iff] at *
  omega

theorem insertAlarm_perm (e : AlarmEntry) (l : List AlarmEntry) : (insertAlarm e l).Perm (e :: l) := by
  induction l with
  | nil => exact .refl _
  | cons x rest ih =>
    unfold insertAlarm
    split
    · exact .refl _
    · exact (ih.cons x).trans (.swap e x rest)

theorem mem_insertAlarm {e x : AlarmEntry} {l : List AlarmEntry} : x ∈ insertAlarm e l ↔ x = e ∨ x ∈ l := by
  rw [(insertAlarm_perm e l).mem_iff, List.mem_cons]

theorem insertAlarm_ordered {e : AlarmEntry} {l : List AlarmEntry} (hl : l.Pairwise (fun x y => x.before y = true))
    (absent : ∀ x ∈ l, x.account ≠ e.account) : (insertAlarm e l).Pairwise (fun x y => x.before y = true) := by
  induction l with
  | nil => exact List.pairwise_singleton _ _
  | cons x rest ih =>
    obtain ⟨hx, hrest⟩ := List.pairwise_cons.mp hl
    unfold insertAlarm
    split
    · rename_i hb
      refine List.pairwise_cons.mpr ⟨fun y hy => ?_, hl⟩
      rcases List.mem_cons.mp hy with rfl | hy
      · exact hb
      · exact AlarmEntry.before_trans hb (hx y hy)
    · rename_i hb
      refine List.pairwise_cons.mpr ⟨fun y hy => ?_, ih hrest fun y hy => absent y (List.mem_cons_of_mem _ hy)⟩
      rcases mem_insertAlarm.mp hy with rfl | hy
      · exact AlarmEntry.before_of_not hb (absent x List.mem_cons_self)
      · exact hx y hy

theorem insertAlarm_single {e : AlarmEntry} {l : List AlarmEntry} (hl : l.Pairwise (fun x y => x.account ≠ y.account))
    (absent : ∀ x ∈ l, x.account ≠ e.account) : (insertAlarm e l).Pairwise (fun x y => x.account ≠ y.account) :=
  ((insertAlarm_perm e l).pairwise_iff fun h => h.symm).mpr
    (List.pairwise_cons.mpr ⟨fun x hx => (absent x hx).symm, hl⟩)

/-! ## Compartments in progress (R106, R109) -/

theorem running_eq_countP (x : Folder) : x.running = x.compartments.countP Compartment.inProgress := by
  simp [Folder.running, List.countP_eq_length_filter]

theorem running_eq_zero {x : Folder} : x.running = 0 ↔ ∀ c ∈ x.compartments, c.inProgress = false := by
  simp [running_eq_countP, List.countP_eq_zero]

theorem running_le_of_still {x : Folder} {n : Nat} (still : x.running = 0) : x.running ≤ n := still ▸ Nat.zero_le n

/-- Compartments of the same loading states run alike. -/
theorem countP_inProgress_congr {cs ds : List Compartment} (h : ds.map Compartment.loading = cs.map Compartment.loading) :
    ds.countP Compartment.inProgress = cs.countP Compartment.inProgress := by
  have key : ∀ l : List Compartment,
      l.countP Compartment.inProgress = (l.map Compartment.loading).countP LoadingState.inProgress := fun l => by
    rw [List.countP_map]; rfl
  rw [key, key, h]

theorem map_loading_set {cs : List Compartment} {k : Nat} {c d : Compartment} (held : cs[k]? = some c)
    (same : d.loading = c.loading) : (cs.set k d).map Compartment.loading = cs.map Compartment.loading := by
  obtain ⟨hk, rfl⟩ := List.getElem?_eq_some_iff.mp held
  refine List.ext_getElem (by simp) fun n _ _ => ?_
  by_cases hn : k = n
  · subst hn; simp [same]
  · simp [hn]

theorem carryStops_loading (cs : List Compartment) :
    ∀ room, (carryStops room cs).1.map Compartment.loading = cs.map Compartment.loading := by
  induction cs with
  | nil => intro room; simp [carryStops]
  | cons c rest ih =>
    intro room
    cases room with
    | zero => rfl
    | succ n =>
      unfold carryStops
      split
      · simp [ih, clearStop]
      · simp [ih]

theorem planned_still (c : Compartment) : (planned c).inProgress = false := by
  simp only [planned, Compartment.inProgress]
  split <;> rfl

theorem voidRunning_still (b : Fin 8) (c : Compartment) : (voidRunning b c).inProgress = false := by
  unfold voidRunning
  split
  · rfl
  · simp_all

/-! ## One folder -/

/-- What `State.FoldersOk` says of one folder alone, under an arms setting and a mode. -/
structure Folder.Ok (arms : Nat) (mode : Mode) (x : Folder) : Prop where
  free : x.state = .free → x = Folder.free x.compartments
  length : 1 ≤ x.compartments.length ∧ x.compartments.length ≤ 6
  crew : x.second ≠ some x.primary
  bay : x.bay.isSome ↔ x.state = .assigned ∨ x.state = .loading
  arms : x.running ≤ arms
  idle : x.state ≠ .loading ∨ mode ≠ .run → x.running = 0

theorem State.FoldersOk.folder {s : State} (h : s.FoldersOk) (f : Fin 16) : (s.folder f).Ok s.mr.arms s.mc.mode :=
  ⟨h.free f, h.length f, h.crew f, h.bay f, h.arms f, h.idle f⟩

/-- A folder outside LOADING has no compartment in progress (R109). -/
theorem Folder.Ok.still {n : Nat} {m : Mode} {x : Folder} (h : x.Ok n m) (hl : x.state ≠ .loading) : x.running = 0 :=
  h.idle (.inl hl)

/-- A folder outside ASSIGNED and LOADING has no bay (R71). -/
theorem Folder.Ok.bay_none {n : Nat} {m : Mode} {x : Folder} (h : x.Ok n m) (ha : x.state ≠ .assigned)
    (hl : x.state ≠ .loading) : x.bay = none := by
  rw [← Option.not_isSome_iff_eq_none, h.bay]
  simp [ha, hl]

end Sys2Proof.Machine
end

section
/-! PROOFS. How the records' invariant stands to single writes of the state: what it reads, one account, the alarm list,
one folder, and the notice to Mode Control. -/

namespace Sys2Proof.Machine

/-! ## What the invariant reads -/

/-- From `s` to `t` everything `State.RecordsOk` reads stays, but that the frame waiting may be gone. -/
structure SameRecords (s t : State) : Prop where
  accounts : t.accounts = s.accounts
  alarms : t.hu.alarms = s.hu.alarms
  folders : t.folders = s.folders
  metering : t.mr = s.mr
  mode : t.mc.mode = s.mc.mode
  target : t.mc.pendingTarget = s.mc.pendingTarget
  frame : t.underway.frame = s.underway.frame ∨ t.underway.frame = none

variable {s t : State}

theorem loadingCount_ne_zero : s.loadingCount ≠ 0 ↔ ∃ f, (s.folder f).state = .loading := by
  simp [State.loadingCount, List.filter_eq_nil_iff]

theorem loadingCount_eq_zero : s.loadingCount = 0 ↔ ∀ f, (s.folder f).state ≠ .loading := by
  have := loadingCount_ne_zero (s := s)
  grind

theorem State.AccountsOk.of_kept (h : s.AccountsOk) (state : ∀ i, (t.account i).state = (s.account i).state)
    (card : ∀ i, (t.account i).card = (s.account i).card)
    (free : ∀ i, (s.account i).state = .free → t.account i = s.account i) : t.AccountsOk where
  free i hi := by
    rw [state] at hi
    rw [free i hi, h.free i hi]
  card i hi := by
    rw [state] at hi
    rw [card]
    exact h.card i hi
  distinct i j := by
    simp only [state, card]
    exact h.distinct i j

theorem State.AlarmsOk.of_kept (h : s.AlarmsOk) (alarms : t.hu.alarms = s.hu.alarms)
    (state : ∀ i, (t.account i).state = (s.account i).state)
    (status : ∀ i, (t.account i).status = (s.account i).status) : t.AlarmsOk where
  ordered := alarms ▸ h.ordered
  single := alarms ▸ h.single
  working := by simpa only [alarms, state, status] using h.working

/-- Folders are read with the live folders of the accounts, the arms and the mode. -/
theorem State.FoldersOk.of_kept (h : s.FoldersOk) (folders : t.folders = s.folders) (arms : t.mr.arms = s.mr.arms)
    (mode : t.mc.mode = s.mc.mode) (live : ∀ i, (t.account i).liveFolder = (s.account i).liveFolder) : t.FoldersOk := by
  have hf : ∀ f, t.folder f = s.folder f := folder_congr folders
  refine ⟨?_, ?_, ?_, ?_, ?_, ?_, ?_, ?_, ?_⟩ <;> simp only [hf, arms, mode, live]
  · exact h.free
  · exact h.length
  · exact h.crew
  · exact h.named
  · exact h.naming
  · exact h.bay
  · exact h.oneFolder
  · exact h.arms
  · exact h.idle

theorem State.ModeOk.of_kept (h : s.ModeOk) (mode : t.mc.mode = s.mc.mode)
    (target : t.mc.pendingTarget = s.mc.pendingTarget)
    (loading : ∀ f, (t.folder f).state = .loading ↔ (s.folder f).state = .loading) : t.ModeOk := by
  intro m hm
  rw [target] at hm
  obtain ⟨hr, hne, hc⟩ := h m hm
  refine ⟨mode ▸ hr, hne, ?_⟩
  rw [loadingCount_ne_zero] at *
  simpa only [loading] using hc

theorem State.SlotOk.of_kept (h : s.SlotOk) (mode : t.mc.mode = s.mc.mode)
    (frame : t.underway.frame = s.underway.frame ∨ t.underway.frame = none)
    (loading : ∀ f, (t.folder f).state = .loading → (s.folder f).state = .loading) : t.SlotOk := by
  intro a ha har hm f hf
  rcases frame with e | e
  · exact h a (e ▸ ha) har (mode ▸ hm) f (loading f hf)
  · rw [e] at ha; cases ha

/-- The accounts and the alarm list may change while folders, mode and frame stay. -/
theorem State.RecordsOk.of_accounts (h : s.RecordsOk) (accounts : t.AccountsOk) (alarms : t.AlarmsOk)
    (live : ∀ i, (t.account i).liveFolder = (s.account i).liveFolder) (folders : t.folders = s.folders)
    (metering : t.mr = s.mr) (mc : t.mc = s.mc) (underway : t.underway = s.underway) : t.RecordsOk where
  accounts := accounts
  alarms := alarms
  folders := h.folders.of_kept folders (by rw [metering]) (by rw [mc]) live
  mode := h.mode.of_kept (by rw [mc]) (by rw [mc]) fun f => by rw [folder_congr folders]
  slot := h.slot.of_kept (by rw [mc]) (.inl (by rw [underway])) fun f => by rw [folder_congr folders]; exact id

theorem State.RecordsOk.same (h : s.RecordsOk) (k : SameRecords s t) : t.RecordsOk := by
  have ha : ∀ i, t.account i = s.account i := account_congr k.accounts
  have hf : ∀ f, t.folder f = s.folder f := folder_congr k.folders
  constructor
  · exact h.accounts.of_kept (fun i => by rw [ha]) (fun i => by rw [ha]) fun i _ => ha i
  · exact h.alarms.of_kept k.alarms (fun i => by rw [ha]) fun i => by rw [ha]
  · exact h.folders.of_kept k.folders (by rw [k.metering]) k.mode fun i => by rw [ha]
  · exact h.mode.of_kept k.mode k.target fun f => by rw [hf]
  · exact h.slot.of_kept k.mode k.frame fun f => by rw [hf]; exact id

/-- A frame that arrives in RUN arrives while the mode is RUN (R168). -/
theorem State.RecordsOk.frameReceived (h : s.RecordsOk) (n : Fin 9) : (s.frameReceived n).RecordsOk where
  accounts := h.accounts.of_kept (fun _ => rfl) (fun _ => rfl) fun _ _ => rfl
  alarms := h.alarms.of_kept rfl (fun _ => rfl) fun _ => rfl
  folders := h.folders.of_kept rfl rfl rfl fun _ => rfl
  mode := h.mode.of_kept rfl rfl fun _ => Iff.rfl
  slot := fun a ha har hm => by cases ha; exact absurd har hm

/-! ## One account, and the alarm list -/

/-- A record in place of account `i`, with the same live folder. -/
theorem State.RecordsOk.setAccount (h : s.RecordsOk) {i : Fin 64} {a : Account}
    (live : a.liveFolder = (s.account i).liveFolder) (free : a.state = .free → a = Account.free)
    (card : a.state ≠ .free → ∃ n, n ≠ 0 ∧ a.card = some n)
    (distinct : a.state ≠ .free → ∀ j, j ≠ i → (s.account j).state ≠ .free → (s.account j).card ≠ a.card)
    (working : ∀ e ∈ s.hu.alarms, e.account = i → a.state ≠ .free ∧ a.status ≠ .rest) :
    (s.setAccount i a).RecordsOk := by
  refine h.of_accounts ⟨?_, ?_, ?_⟩ ⟨h.alarms.ordered, h.alarms.single, ?_⟩ ?_ rfl rfl rfl rfl
  · intro j
    rw [account_setAccount]
    split
    · exact free
    · exact h.accounts.free j
  · intro j
    rw [account_setAccount]
    split
    · exact card
    · exact h.accounts.card j
  · intro j k
    simp only [account_setAccount]
    have := h.accounts.distinct j k
    have := distinct
    grind
  · intro e he
    rw [account_setAccount]
    split
    · exact working e he (by simp_all)
    · exact h.alarms.working e he
  · intro j
    rw [account_setAccount]
    split
    · rename_i hij
      rw [live, hij]
    · rfl

/-- A non-FREE account's record rewritten under the same card and live folder, its alarm entry still allowed. -/
theorem State.RecordsOk.rewriteAccount (h : s.RecordsOk) {i : Fin 64} {a : Account} (held : (s.account i).state ≠ .free)
    (state : a.state ≠ .free) (card : a.card = (s.account i).card) (live : a.liveFolder = (s.account i).liveFolder)
    (working : (∃ e ∈ s.hu.alarms, e.account = i) → a.status ≠ .rest) : (s.setAccount i a).RecordsOk :=
  h.setAccount live (fun hf => absurd hf state) (fun _ => card ▸ h.accounts.card i held)
    (fun _ j hj hjf hc => hj (h.accounts.distinct j i hjf held (hc.trans card)))
    fun e he hi => ⟨state, working ⟨e, he, hi⟩⟩

theorem State.RecordsOk.setAttention (h : s.RecordsOk) (a : AttentionFlag) : (setAttention a s).RecordsOk :=
  h.same ⟨rfl, rfl, rfl, rfl, rfl, rfl, .inl rfl⟩

theorem State.RecordsOk.raiseHighWater (h : s.RecordsOk) (n : Nat) : (s.raiseHighWater n).RecordsOk :=
  h.same ⟨rfl, rfl, rfl, rfl, rfl, rfl, .inl rfl⟩

theorem State.RecordsOk.raiseAlarm (h : s.RecordsOk) {i : Fin 64} (held : (s.account i).state ≠ .free) (k : AlarmFlag) :
    (raiseAlarm i k s).RecordsOk := by
  unfold Machine.raiseAlarm
  split
  · exact h
  · have marked := h.rewriteAccount (a := (s.account i).setAlarm k) held held rfl rfl
      fun ⟨e, he, hi⟩ => hi ▸ (h.alarms.working e he).2
    exact marked.setAttention _

/-- Alarm entries dropped, the others in their order. -/
theorem State.RecordsOk.dropAlarms (h : s.RecordsOk) {l : List AlarmEntry} (sub : l.Sublist s.hu.alarms) :
    (s.setAlarms l).RecordsOk :=
  h.of_accounts (h.accounts.of_kept (fun _ => rfl) (fun _ => rfl) fun _ _ => rfl)
    ⟨h.alarms.ordered.sublist sub, h.alarms.single.sublist sub, fun e he => h.alarms.working e (sub.subset he)⟩
    (fun _ => rfl) rfl rfl rfl rfl

theorem State.RecordsOk.removeAlarm (h : s.RecordsOk) (i : Fin 64) : (s.removeAlarm i).RecordsOk :=
  h.dropAlarms List.filter_sublist

/-- After its removal an account has no entry. -/
theorem account_ne_of_mem_removeAlarm {i : Fin 64} {e : AlarmEntry} (he : e ∈ (s.removeAlarm i).hu.alarms) :
    e.account ≠ i := by
  simpa using (List.mem_filter.mp he).2

theorem State.RecordsOk.insertAlarm (h : s.RecordsOk) {e : AlarmEntry}
    (absent : ∀ x ∈ s.hu.alarms, x.account ≠ e.account) (held : (s.account e.account).state ≠ .free) (works : (s.account e.account).status ≠ .rest) :
    (s.insertAlarm e).RecordsOk := by
  refine h.of_accounts (h.accounts.of_kept (fun _ => rfl) (fun _ => rfl) fun _ _ => rfl)
    ⟨insertAlarm_ordered h.alarms.ordered absent, insertAlarm_single h.alarms.single absent, fun x hx => ?_⟩
    (fun _ => rfl) rfl rfl rfl rfl
  rcases mem_insertAlarm.mp hx with rfl | hx
  · exact ⟨held, works⟩
  · exact h.alarms.working x hx

/-! ## One folder -/

/-- Folder `f` written as a folder of the same drivers that is sound alone, with a bay no other folder holds. -/
theorem State.FoldersOk.setFolder (h : s.FoldersOk) {f : Fin 16} {x : Folder} (ok : x.Ok s.mr.arms s.mc.mode)
    (crew : x.drivers = (s.folder f).drivers) (live : x.state = .free ↔ (s.folder f).state = .free)
    (bay : ∀ b, x.bay = some b → ∀ g, g ≠ f → (s.folder g).bay ≠ some b) : (s.setFolder f x).FoldersOk := by
  have one : ∀ g, ((s.setFolder f x).folder g).Ok s.mr.arms s.mc.mode := fun g => by
    rw [folder_setFolder]
    split
    · exact ok
    · exact h.folder g
  have same : ∀ g, ((s.setFolder f x).folder g).drivers = (s.folder g).drivers ∧
      (((s.setFolder f x).folder g).state = .free ↔ (s.folder g).state = .free) := fun g => by
    rw [folder_setFolder]
    split
    · rename_i hg; subst hg; exact ⟨crew, live⟩
    · exact ⟨rfl, Iff.rfl⟩
  refine ⟨fun g => (one g).free, fun g => (one g).length, fun g => (one g).crew, fun g => ?_, fun i g => ?_,
    fun g => (one g).bay, fun g k b => ?_, fun g => (one g).arms, fun g => (one g).idle⟩
  · rw [ne_eq, (same g).2, (same g).1]
    exact h.named g
  · rw [ne_eq, (same g).2, (same g).1]
    exact h.naming i g
  · simp only [folder_setFolder]
    have := h.oneFolder g k b
    have := bay b
    grind

/-- The records between the end of a folder's loading and the notice of it to Mode Control (R191): a pending target may
wait for no folder. -/
structure State.BeforeNotice (s : State) : Prop where
  accounts : s.AccountsOk
  alarms : s.AlarmsOk
  folders : s.FoldersOk
  slot : s.SlotOk
  target : ∀ m, s.mc.pendingTarget = some m → s.mc.mode = .run ∧ m ≠ .run

theorem State.RecordsOk.beforeNotice (h : s.RecordsOk) : s.BeforeNotice :=
  ⟨h.accounts, h.alarms, h.folders, h.slot, fun m hm => ⟨(h.mode m hm).1, (h.mode m hm).2.1⟩⟩

theorem State.BeforeNotice.records (h : s.BeforeNotice) (mode : s.ModeOk) : s.RecordsOk :=
  ⟨h.accounts, h.alarms, h.folders, mode, h.slot⟩

theorem State.BeforeNotice.setAttention (h : s.BeforeNotice) (a : AttentionFlag) :
    (Machine.setAttention a s).BeforeNotice :=
  ⟨h.accounts.of_kept (fun _ => rfl) (fun _ => rfl) fun _ _ => rfl, h.alarms.of_kept rfl (fun _ => rfl) fun _ => rfl,
    h.folders.of_kept rfl rfl rfl fun _ => rfl, h.slot.of_kept rfl (.inl rfl) fun _ => id, h.target⟩

/-- A folder written that does not enter LOADING. -/
theorem State.RecordsOk.setFolder_beforeNotice (h : s.RecordsOk) {f : Fin 16} {x : Folder}
    (ok : x.Ok s.mr.arms s.mc.mode) (crew : x.drivers = (s.folder f).drivers)
    (live : x.state = .free ↔ (s.folder f).state = .free)
    (bay : ∀ b, x.bay = some b → ∀ g, g ≠ f → (s.folder g).bay ≠ some b)
    (loading : x.state = .loading → (s.folder f).state = .loading) : (s.setFolder f x).BeforeNotice where
  accounts := h.accounts.of_kept (fun _ => rfl) (fun _ => rfl) fun _ _ => rfl
  alarms := h.alarms.of_kept rfl (fun _ => rfl) fun _ => rfl
  folders := h.folders.setFolder ok crew live bay
  slot := h.slot.of_kept rfl (.inl rfl) fun g => by
    rw [folder_setFolder]
    split
    · rename_i hg; subst hg; exact loading
    · exact id
  target := h.beforeNotice.target

/-- A folder written that is LOADING exactly if it was. -/
theorem State.RecordsOk.setFolder (h : s.RecordsOk) {f : Fin 16} {x : Folder} (ok : x.Ok s.mr.arms s.mc.mode)
    (crew : x.drivers = (s.folder f).drivers) (live : x.state = .free ↔ (s.folder f).state = .free)
    (bay : ∀ b, x.bay = some b → ∀ g, g ≠ f → (s.folder g).bay ≠ some b)
    (loading : x.state = .loading ↔ (s.folder f).state = .loading) : (s.setFolder f x).RecordsOk :=
  (h.setFolder_beforeNotice ok crew live bay loading.mp).records (h.mode.of_kept rfl rfl fun g => by
    rw [folder_setFolder]
    split
    · rename_i hg; subst hg; exact loading
    · exact Iff.rfl)

/-- A folder that keeps its own bay takes no other folder's. -/
theorem State.FoldersOk.bay_kept (h : s.FoldersOk) {f : Fin 16} {x : Folder}
    (kept : x.bay = (s.folder f).bay ∨ x.bay = none) :
    ∀ b, x.bay = some b → ∀ g, g ≠ f → (s.folder g).bay ≠ some b := by
  intro b hb g hg hgb
  rcases kept with e | e
  · exact hg (h.oneFolder g f b hgb (e ▸ hb))
  · rw [e] at hb; cases hb

/-- The notice to Mode Control ends a pending change that waits for no folder (R191). -/
theorem State.BeforeNotice.leftLoading (h : s.BeforeNotice) : (leftLoading s).RecordsOk := by
  unfold Machine.leftLoading
  split
  · rename_i hn
    exact h.records fun m hm => by rw [hn] at hm; cases hm
  · rename_i target ht
    split
    · rename_i hc
      have hl := loadingCount_eq_zero.mp hc
      refine ⟨?_, ?_, ⟨?_, ?_, ?_, ?_, ?_, ?_, ?_, ?_, ?_⟩, ?_, ?_⟩
      · exact h.accounts.of_kept (fun _ => rfl) (fun _ => rfl) fun _ _ => rfl
      · exact h.alarms.of_kept rfl (fun _ => rfl) fun _ => rfl
      · exact h.folders.free
      · exact h.folders.length
      · exact h.folders.crew
      · exact h.folders.named
      · exact h.folders.naming
      · exact h.folders.bay
      · exact h.folders.oneFolder
      · exact h.folders.arms
      · exact fun f _ => h.folders.idle f (.inl (hl f))
      · intro m hm; cases hm
      · exact fun _ _ _ _ f => hl f
    · rename_i hc
      exact h.records fun m hm => ⟨(h.target m hm).1, (h.target m hm).2, hc⟩

end Sys2Proof.Machine
end

section
/-! PROOFS. The records' invariant under the operations of the accounts and of the Limit Alarm List. -/

namespace Sys2Proof.Machine

variable {s : State}

/-! ## Raising a flag (R18) -/

/-- A record after an alarm flag is raised on it: newly set, it sets unread (R18). -/
def Account.raised (k : AlarmFlag) (a : Account) : Account := if a.hasAlarm k then a else a.setAlarm k

@[simp] theorem raised_state (k : AlarmFlag) (a : Account) : (a.raised k).state = a.state := by
  unfold Account.raised; split <;> rfl
@[simp] theorem raised_status (k : AlarmFlag) (a : Account) : (a.raised k).status = a.status := by
  unfold Account.raised; split <;> rfl

@[simp] theorem raised_expiry (k : AlarmFlag) (a : Account) : (a.raised k).expiry = a.expiry := by
  unfold Account.raised; split <;> rfl
@[simp] theorem raised_profile (k : AlarmFlag) (a : Account) : (a.raised k).profile = a.profile := by
  unfold Account.raised; split <;> rfl

/-- What the records hold after a flag is raised: account `i`'s record, and no other, is raised. -/
theorem account_raiseAlarm (i j : Fin 64) (k : AlarmFlag) :
    (raiseAlarm i k s).account j = if i = j then (s.account i).raised k else s.account j := by
  unfold raiseAlarm Account.raised
  split
  · split
    · rename_i hij; rw [hij]
    · rfl
  · rw [account_setAttention, account_setAccount]

/-! ## Recomputes and the expiry test (R19, R55) -/

/-- What a recompute places keeps the records, once the account's old entry is gone. -/
theorem State.RecordsOk.placeAlarm (h : s.RecordsOk) (m : Nat) {i : Fin 64}
    (gone : ∀ e ∈ s.hu.alarms, e.account ≠ i) :
    (placeAlarm m i s).RecordsOk := by
  unfold Machine.placeAlarm
  dsimp only
  split
  · exact h
  · rename_i held
    split
    · exact h
    · rename_i duty
      split
      · exact h
      · split
        · exact h.insertAlarm gone held (by simp [duty])
        · exact h.raiseAlarm held _
    · rename_i drive
      split
      · exact h.insertAlarm gone held (by simp [drive])
      · split
        · exact h.insertAlarm gone held (by simp [drive])
        · exact h.raiseAlarm held _

theorem State.RecordsOk.recompute (h : s.RecordsOk) (i : Fin 64) : (recompute i s).RecordsOk :=
  (h.removeAlarm i).placeAlarm _ fun _ => account_ne_of_mem_removeAlarm

theorem State.RecordsOk.recomputeAll (h : s.RecordsOk) : (recomputeAll s).RecordsOk :=
  overAccounts_invariant State.RecordsOk _ (fun i t ht => by
    split
    · exact ht
    · exact ht.recompute i) s h

theorem State.RecordsOk.recomputeProfile (h : s.RecordsOk) (p : ProfileLetter) : (recomputeProfile p s).RecordsOk :=
  overAccounts_invariant State.RecordsOk _ (fun i t ht => by
    split
    · exact ht.recompute i
    · exact ht) s h

theorem State.RecordsOk.expiryTest (h : s.RecordsOk) (i : Fin 64) : (expiryTest i s).RecordsOk := by
  unfold Machine.expiryTest
  split
  · rename_i active
    exact h.raiseAlarm (by simp [active.1]) _
  · exact h

theorem State.RecordsOk.setProfile (h : s.RecordsOk) (p : ProfileLetter) (x : LimitProfile) :
    (s.setProfile p x).RecordsOk :=
  h.same ⟨by simp, by simp, by simp, by simp, by simp, by simp, by simp⟩

/-- A recompute changes an account's record by a raised flag alone (R55). -/
theorem account_recompute (i j : Fin 64) :
    (recompute i s).account j = s.account j ∨ ∃ k, (recompute i s).account j = (s.account j).raised k := by
  have raised : ∀ k, (raiseAlarm i k (s.removeAlarm i)).account j = s.account j ∨
      ∃ k', (raiseAlarm i k (s.removeAlarm i)).account j = (s.account j).raised k' := fun k => by
    rw [account_raiseAlarm]
    split
    · rename_i hij; subst hij; exact .inr ⟨k, rfl⟩
    · exact .inl rfl
  unfold recompute recomputeAt placeAlarm
  dsimp only
  (repeat' split) <;> first | exact .inl rfl | exact raised _

@[simp] theorem recompute_state (i j : Fin 64) : ((recompute i s).account j).state = (s.account j).state := by
  rcases account_recompute (s := s) i j with e | ⟨k, e⟩ <;> rw [e]
  exact raised_state k _

@[simp] theorem recompute_expiry (i j : Fin 64) : ((recompute i s).account j).expiry = (s.account j).expiry := by
  rcases account_recompute (s := s) i j with e | ⟨k, e⟩ <;> rw [e]
  exact raised_expiry k _

@[simp] theorem expiryTest_state (i j : Fin 64) : ((expiryTest i s).account j).state = (s.account j).state := by
  unfold expiryTest
  split
  · rw [account_raiseAlarm]; split <;> simp_all
  · rfl

/-! ## The firing pass and the boundaries (R48, R49, R52, R57) -/

/-- An entry fired once it is off the list; a WARN's LIMIT takes its place (R57). -/
theorem State.RecordsOk.fireEntry (h : s.RecordsOk) {e : AlarmEntry}
    (gone : ∀ x ∈ s.hu.alarms, x.account ≠ e.account) (held : (s.account e.account).state ≠ .free) (works : (s.account e.account).status ≠ .rest) :
    (fireEntry e s).RecordsOk := by
  unfold Machine.fireEntry
  split
  · refine (h.raiseAlarm held _).insertAlarm (by simpa using gone) ?_ ?_
    · simpa [account_raiseAlarm] using held
    · simpa [account_raiseAlarm] using works
  · exact h.raiseAlarm held _
  · exact h.raiseAlarm held _

theorem State.RecordsOk.fireDue (m fuel : Nat) : ∀ {s : State}, s.RecordsOk → (fireDue m fuel s).RecordsOk := by
  induction fuel with
  | zero => exact fun h => h
  | succ n ih =>
    intro s h
    unfold Machine.fireDue
    split
    · exact h
    · rename_i e rest hl
      split
      · have single := h.alarms.single
        rw [hl, List.pairwise_cons] at single
        obtain ⟨held, works⟩ := h.alarms.working e (by simp [hl])
        have popped : (s.setAlarms rest).RecordsOk := h.dropAlarms (by rw [hl]; exact List.sublist_cons_self e rest)
        exact ih (popped.fireEntry (fun x hx => (single.1 x hx).symm) held works)
      · exact h

theorem State.RecordsOk.firingPass (h : s.RecordsOk) (m : Nat) : (firingPass m s).RecordsOk := .fireDue _ _ h

theorem State.RecordsOk.transferProfile (h : s.RecordsOk) (p : ProfileLetter) : (transferProfile p s).RecordsOk := by
  unfold Machine.transferProfile
  dsimp only
  split
  · exact h.setProfile _ _
  · exact h

theorem State.RecordsOk.setTc (h : s.RecordsOk) (c : TerminalClock) : ({ s with tc := c } : State).RecordsOk :=
  h.same ⟨rfl, rfl, rfl, rfl, rfl, rfl, .inl rfl⟩

theorem State.RecordsOk.dayWork (h : s.RecordsOk) : (dayWork s).RecordsOk := by
  have transferred := (h.transferProfile .a).transferProfile .b
  have tested := overAccounts_invariant State.RecordsOk Machine.expiryTest (fun i _ ht => ht.expiryTest i) _ transferred
  exact tested.recomputeAll.setTc _

theorem State.RecordsOk.dayCheck (h : s.RecordsOk) : (dayCheck s).RecordsOk := by
  unfold Machine.dayCheck
  split
  · exact h
  · exact h.dayWork

theorem State.RecordsOk.takeMinuteBoundary (h : s.RecordsOk) : (takeMinuteBoundary s).RecordsOk :=
  (State.RecordsOk.firingPass (h.setTc _) _).dayCheck

theorem State.RecordsOk.timeJump (h : s.RecordsOk) (before : Nat) : (timeJump before s).RecordsOk := by
  have fired : (if before < s.minute then Machine.firingPass s.minute (s.setMinuteDue false) else s).RecordsOk := by
    split
    · exact State.RecordsOk.firingPass (h.setTc _) _
    · exact h
  have jumped : ∀ u : State, u.RecordsOk → (if u.today ≠ u.tc.treatedDay then Machine.dayWork u
      else if s.minute ≠ before then Machine.recomputeAll u else u).RecordsOk := fun u hu => by
    split
    · exact hu.dayWork
    · split
      · exact hu.recomputeAll
      · exact hu
  exact jumped _ fired

theorem State.RecordsOk.startAlarms (h : s.RecordsOk) : (startAlarms s).RecordsOk := by
  unfold Machine.startAlarms
  split
  · exact h.dayWork
  · exact h.recomputeAll

/-! ## Status changes (R13) -/

/-- A status change keeps standing, card and live folder (R13). -/
theorem changedRecord_kept (offset : Nat) (l : Limits) (new : Status) (time : Nat) (a : Account) :
    (changedRecord offset l new time a).state = a.state ∧ (changedRecord offset l new time a).card = a.card ∧
      (changedRecord offset l new time a).liveFolder = a.liveFolder := by
  rw [changedRecord_eq]
  exact ⟨rfl, rfl, rfl⟩

theorem State.RecordsOk.noteLate (h : s.RecordsOk) {i : Fin 64} (held : (s.account i).state ≠ .free) (time : Nat) :
    (noteLate i time s).RecordsOk := by
  unfold Machine.noteLate
  split
  · exact h.raiseAlarm held _
  · exact h

theorem State.RecordsOk.applyStatus (h : s.RecordsOk) {i : Fin 64} (held : (s.account i).state ≠ .free) (new : Status)
    (time : Nat) : (applyStatus i new time s).RecordsOk := by
  obtain ⟨state, card, live⟩ :=
    changedRecord_kept s.tc.dayOffset (s.limitsOf (s.account i)) new time (s.account i)
  have written := (h.removeAlarm i).rewriteAccount (i := i) held (state ▸ held) card live
    fun ⟨e, he, hi⟩ => absurd hi (account_ne_of_mem_removeAlarm he)
  exact (written.raiseHighWater time).placeAlarm _ fun _ => account_ne_of_mem_removeAlarm

theorem State.RecordsOk.changeStatus (h : s.RecordsOk) (i : Fin 64) (new : Status) (time : Nat) :
    (changeStatus i new time s).state.RecordsOk := by
  unfold Machine.changeStatus
  split
  · exact h
  · rename_i held
    split
    · exact h
    · have noted := h.noteLate held time
      have still : ((Machine.noteLate i time s).account i).state ≠ .free := by
        unfold Machine.noteLate
        split
        · simpa [account_raiseAlarm] using held
        · exact held
      dsimp only
      split
      · exact noted
      · exact noted.applyStatus still new _

/-! ## Opening, editing and closing an account (R5, R6, R9) -/

theorem findCard_none {card : Nat} (h : s.findCard card = none) (j : Fin 64) (held : (s.account j).state ≠ .free) :
    (s.account j).card ≠ some card := by
  have := lowest_none.mp h j
  simp_all

theorem cardElsewhere_false {i : Fin 64} {card : Nat} :
    s.cardElsewhere i card = false ↔ ∀ j, j ≠ i → (s.account j).state ≠ .free → (s.account j).card ≠ some card := by
  simp [State.cardElsewhere, lowest_none]

theorem State.RecordsOk.openAccount (h : s.RecordsOk) {i : Fin 64} {card : BitVec 32} {p : ProfileLetter} {e : Byte}
    {x arrival : Nat} (free : (s.account i).state = .free) (real : card ≠ 0) (new : s.findCard card.toNat = none) :
    (s.setAccount i (openedRecord card.toNat p e x arrival)).RecordsOk := by
  have none_live : (s.account i).liveFolder = none := by rw [h.accounts.free i free]; rfl
  refine h.setAccount (by rw [none_live]; rfl) (fun hf => by cases hf) (fun _ => ⟨_, BitVec.toNat_ne.mp real, rfl⟩)
    (fun _ j _ hj => findCard_none new j hj) fun y hy hi => ?_
  exact absurd (hi ▸ free) (h.alarms.working y hy).1

theorem State.RecordsOk.clearExpired (h : s.RecordsOk) {i : Fin 64} (held : (s.account i).state ≠ .free) :
    (clearExpired i s).RecordsOk := by
  unfold Machine.clearExpired
  split
  · exact h.rewriteAccount held held rfl rfl fun ⟨e, he, hi⟩ => hi ▸ (h.alarms.working e he).2
  · exact h

theorem State.RecordsOk.editRecord (h : s.RecordsOk) {i : Fin 64} {card : BitVec 32} {p : ProfileLetter}
    {e : Byte} {x : Nat} (held : (s.account i).state ≠ .free) (real : card ≠ 0) (new : s.cardElsewhere i card.toNat = false) :
    (editRecord i card.toNat p e x s).RecordsOk := by
  have written : (s.setAccount i
      { s.account i with card := some card.toNat, profile := p, endorsements := e, expiry := x }).RecordsOk :=
    h.setAccount rfl (fun hf => absurd hf held) (fun _ => ⟨_, BitVec.toNat_ne.mp real, rfl⟩)
      (fun _ => cardElsewhere_false.mp new) fun y hy hi => hi ▸ h.alarms.working y hy
  unfold Machine.editRecord
  dsimp only
  split
  · exact ((written.recompute i).expiryTest i).clearExpired (by simpa using held)
  · exact (written.expiryTest i).clearExpired (by simpa using held)

theorem State.RecordsOk.closeAccount (h : s.RecordsOk) {i : Fin 64} (idle : (s.account i).liveFolder = none) :
    ((s.removeAlarm i).setAccount i Account.free).RecordsOk :=
  (h.removeAlarm i).setAccount (by rw [← account_congr (s := s) rfl i] at idle; exact idle.symm) (fun _ => rfl)
    (fun hf => absurd rfl hf) (fun hf => absurd rfl hf) fun _ he hi => absurd hi (account_ne_of_mem_removeAlarm he)

end Sys2Proof.Machine
end

section
/-! PROOFS. The records' invariant under the operations of the folders, of Mode Control and of the starts. -/

namespace Sys2Proof.Machine

variable {s : State}

/-! ## Folders written (R66 to R73, R76, R78, R81) -/

/-- A folder rewritten with the same state, bay, drivers and loading states. -/
theorem Folder.Ok.rewritten {n : Nat} {m : Mode} {x y : Folder} (h : x.Ok n m) (state : y.state = x.state)
    (held : x.state ≠ .free) (drivers : y.primary = x.primary ∧ y.second = x.second) (bay : y.bay = x.bay)
    (loading : y.compartments.map Compartment.loading = x.compartments.map Compartment.loading) : y.Ok n m := by
  have hrun : y.running = x.running := by
    rw [running_eq_countP, running_eq_countP, countP_inProgress_congr loading]
  have hlen : y.compartments.length = x.compartments.length := by simpa using congrArg List.length loading
  refine ⟨fun hf => absurd (state ▸ hf) held, by rw [hlen]; exact h.length, by rw [drivers.1, drivers.2]; exact h.crew,
    by rw [bay, state]; exact h.bay, by rw [hrun]; exact h.arms, by rw [hrun, state]; exact h.idle⟩

/-- A non-FREE folder rewritten with the same state, bay, drivers and loading states. -/
theorem State.RecordsOk.rewriteFolder (h : s.RecordsOk) {f : Fin 16} {x : Folder} (state : x.state = (s.folder f).state)
    (held : (s.folder f).state ≠ .free) (primary : x.primary = (s.folder f).primary)
    (second : x.second = (s.folder f).second) (bay : x.bay = (s.folder f).bay)
    (loading : x.compartments.map Compartment.loading = (s.folder f).compartments.map Compartment.loading) :
    (s.setFolder f x).RecordsOk :=
  h.setFolder ((h.folders.folder f).rewritten state held ⟨primary, second⟩ bay loading)
    (by simp [Folder.drivers, primary, second]) (by rw [state]) (h.folders.bay_kept (.inl bay)) (by rw [state])

/-- A folder outside LOADING moved to a state without a bay, or to ASSIGNED with one. -/
theorem Folder.Ok.moved {n : Nat} {m : Mode} {x y : Folder} (h : x.Ok n m) (still : x.running = 0)
    (free : y.state ≠ .free)
    (loading : y.state ≠ .loading) (drivers : y.primary = x.primary ∧ y.second = x.second)
    (bay : y.bay.isSome ↔ y.state = .assigned)
    (runs : y.compartments.map Compartment.loading = x.compartments.map Compartment.loading) : y.Ok n m := by
  have hrun : y.running = 0 := by
    rw [← still, running_eq_countP, running_eq_countP, countP_inProgress_congr runs]
  have hlen : y.compartments.length = x.compartments.length := by simpa using congrArg List.length runs
  exact ⟨fun hf => absurd hf free, by rw [hlen]; exact h.length, by rw [drivers.1, drivers.2]; exact h.crew,
    by simpa [loading] using bay, by omega, fun _ => hrun⟩

/-- A folder in use and outside LOADING moved to another state outside LOADING (R72, R73, R81). -/
theorem State.RecordsOk.moveFolder (h : s.RecordsOk) {f : Fin 16} {x : Folder} (held : (s.folder f).state ≠ .free)
    (resting : (s.folder f).state ≠ .loading) (free : x.state ≠ .free) (loading : x.state ≠ .loading)
    (primary : x.primary = (s.folder f).primary) (second : x.second = (s.folder f).second)
    (bay : x.bay.isSome ↔ x.state = .assigned)
    (runs : x.compartments.map Compartment.loading = (s.folder f).compartments.map Compartment.loading)
    (own : ∀ b, x.bay = some b → ∀ g, g ≠ f → (s.folder g).bay ≠ some b) : (s.setFolder f x).RecordsOk :=
  have ok := h.folders.folder f
  h.setFolder (ok.moved (ok.still resting) free loading ⟨primary, second⟩ bay runs)
    (by simp [Folder.drivers, primary, second]) (by simp [held, free]) own (by simp [resting, loading])

/-- A state of a folder in use that has no bay. -/
def FolderState.bayless (st : FolderState) : Prop := st ≠ .free ∧ st ≠ .assigned ∧ st ≠ .loading

/-- A folder moved between states without a bay (R69, R70, R78, R130). -/
theorem State.RecordsOk.moveBayless (h : s.RecordsOk) {f : Fin 16} {x : Folder} (old : (s.folder f).state.bayless)
    (new : x.state.bayless) (primary : x.primary = (s.folder f).primary) (second : x.second = (s.folder f).second)
    (bay : x.bay = (s.folder f).bay)
    (runs : x.compartments.map Compartment.loading = (s.folder f).compartments.map Compartment.loading) :
    (s.setFolder f x).RecordsOk := by
  have none_held : x.bay = none := bay.trans ((h.folders.folder f).bay_none old.2.1 old.2.2)
  exact h.moveFolder old.1 old.2.2 new.1 new.2.2 primary second (by simp [none_held, new.2.1]) runs
    (by simp [none_held])

theorem evaluated_bayless (x : Folder) : (evaluated x).state.bayless := by
  have : (evaluated x).state = .held ∨ (evaluated x).state = .amendWait ∨ (evaluated x).state = .ready := by
    unfold evaluated
    dsimp only
    (repeat' split) <;> simp
  rcases this with e | e | e <;> simp [FolderState.bayless, e]

theorem bayBusy_false {f : Fin 16} {b : Fin 8} (h : s.bayBusy f b = false) :
    ∀ g, g ≠ f → (s.folder g).bay ≠ some b := by
  simp only [State.bayBusy, Bool.or_eq_false_iff] at h
  have := lowest_isSome.mp h.1.1
  simpa using this

theorem State.RecordsOk.returnAffected (h : s.RecordsOk) (g k : Fin 16) : (returnAffected g k s).RecordsOk := by
  refine overFolders_invariant State.RecordsOk _ (fun f t ht => ?_) s h
  split
  · rename_i ha
    have state : (t.folder f).state = .papered ∨ (t.folder f).state = .assigned := by
      simp only [State.affected, Bool.and_eq_true, Bool.or_eq_true, beq_iff_eq] at ha
      exact ha.1.1
    refine (ht.moveFolder (x := reopened (t.folder f)) ?_ ?_ (by simp [reopened]) (by simp [reopened]) rfl rfl
      (by simp [reopened]) rfl (fun b hb => by cases hb)).setAttention _
    · rcases state with e | e <;> simp [e]
    · rcases state with e | e <;> simp [e]
  · exact ht

/-! ## Opening a folder (R65) -/

theorem account_setLiveFolder (f : Fin 16) (i j : Fin 64) :
    (setLiveFolder f i s).account j = if i = j then { s.account i with liveFolder := some f } else s.account j := by
  simp [setLiveFolder]

theorem foldl_setLiveFolder_folders (f : Fin 16) (l : List (Fin 64)) :
    ∀ s : State, (l.foldl (fun s i => setLiveFolder f i s) s).folders = s.folders ∧
      (l.foldl (fun s i => setLiveFolder f i s) s).hu = s.hu ∧ (l.foldl (fun s i => setLiveFolder f i s) s).mr = s.mr ∧
      (l.foldl (fun s i => setLiveFolder f i s) s).mc = s.mc ∧
      (l.foldl (fun s i => setLiveFolder f i s) s).underway = s.underway := by
  induction l with
  | nil => exact fun s => ⟨rfl, rfl, rfl, rfl, rfl⟩
  | cons i rest ih => exact fun s => ih (setLiveFolder f i s)

theorem account_foldl_setLiveFolder (f : Fin 16) (j : Fin 64) (l : List (Fin 64)) :
    ∀ s : State, (l.foldl (fun s i => setLiveFolder f i s) s).account j =
      if j ∈ l then { s.account j with liveFolder := some f } else s.account j := by
  induction l with
  | nil => intro s; rfl
  | cons i rest ih =>
    intro s
    rw [List.foldl_cons, ih, account_setLiveFolder]
    by_cases hi : i = j
    · subst hi; simp
    · have : j ≠ i := fun e => hi e.symm
      simp [hi, this]

/-- Accounts whose live folder alone changes, none of them FREE, keep what the accounts and the alarm list are bound to. -/
theorem State.RecordsOk.relinked (h : s.RecordsOk) {t : State} (changed : Fin 64 → Prop) [DecidablePred changed]
    {live : Option (Fin 16)}
    (link : ∀ j, t.account j = if changed j then { s.account j with liveFolder := live } else s.account j)
    (held : ∀ j, changed j → (s.account j).state ≠ .free) (alarms : t.hu.alarms = s.hu.alarms) :
    t.AccountsOk ∧ t.AlarmsOk := by
  have kept : ∀ j, (t.account j).state = (s.account j).state ∧ (t.account j).card = (s.account j).card ∧
      (t.account j).status = (s.account j).status := fun j => by
    rw [link]; split <;> exact ⟨rfl, rfl, rfl⟩
  refine ⟨h.accounts.of_kept (fun j => (kept j).1) (fun j => (kept j).2.1) fun j hj => ?_,
    h.alarms.of_kept alarms (fun j => (kept j).1) fun j => (kept j).2.2⟩
  rw [link, if_neg fun hc => held j hc hj]

theorem openedFolder_ok (arms : Nat) (mode : Mode) {tanker : Nat} {p : Fin 64} {q : Option (Fin 64)} {drive duty : Nat}
    {capacities : List Nat} {arrival : Nat} (crew : q ≠ some p)
    (length : 1 ≤ capacities.length ∧ capacities.length ≤ 6) :
    (openedFolder tanker p q drive duty capacities arrival).Ok arms mode := by
  have still : (openedFolder tanker p q drive duty capacities arrival).running = 0 := by
    rw [running_eq_zero]
    intro c hc
    obtain ⟨n, _, rfl⟩ := List.mem_map.mp hc
    rfl
  exact ⟨fun hf => by simp [openedFolder] at hf, by simpa [openedFolder, Folder.free] using length, crew,
    by simp [openedFolder, Folder.free], by omega, fun _ => still⟩

/-- A sound OPEN folder without a bay opened in a FREE place, its drivers in no live folder (R65). -/
theorem State.RecordsOk.openFolder (h : s.RecordsOk) {f : Fin 16} {x : Folder} (free : (s.folder f).state = .free)
    (ok : x.Ok s.mr.arms s.mc.mode) (opened : x.state = .opened)
    (held : ∀ i ∈ x.drivers, (s.account i).state ≠ .free)
    (idle : ∀ i ∈ x.drivers, (s.account i).liveFolder = none) : (openFolder f x s).RecordsOk := by
  obtain ⟨hfolders, hhu, hmr, hmc, hunder⟩ := foldl_setLiveFolder_folders f x.drivers (s.setFolder f x)
  have link : ∀ j, (Machine.openFolder f x s).account j =
      if j ∈ x.drivers then { s.account j with liveFolder := some f } else s.account j :=
    fun j => account_foldl_setLiveFolder f j x.drivers (s.setFolder f x)
  have folder : ∀ g, (Machine.openFolder f x s).folder g = if f = g then x else s.folder g :=
    fun g => (folder_congr hfolders g).trans (folder_setFolder s f g x)
  have one : ∀ g, ((Machine.openFolder f x s).folder g).Ok s.mr.arms s.mc.mode := fun g => by
    rw [folder]
    split
    · exact ok
    · exact h.folders.folder g
  have loading : ∀ g, ((Machine.openFolder f x s).folder g).state = .loading ↔ (s.folder g).state = .loading :=
      fun g => by
    rw [folder]
    split
    · rename_i hg; subst hg; simp [opened, free]
    · exact Iff.rfl
  obtain ⟨accounts, alarms⟩ := h.relinked (· ∈ x.drivers) link held (by rw [Machine.openFolder, hhu]; rfl)
  have no_bay : x.bay = none := ok.bay_none (by simp [opened]) (by simp [opened])
  refine ⟨accounts, alarms, ⟨fun g => (one g).free, fun g => (one g).length, fun g => (one g).crew, fun g hg i hi => ?_,
    fun i g hi => ?_, fun g => (one g).bay, fun g k b hg hk => ?_, fun g => ?_, fun g => ?_⟩,
    h.mode.of_kept (by rw [Machine.openFolder, hmc]; rfl) (by rw [Machine.openFolder, hmc]; rfl) loading,
    h.slot.of_kept (by rw [Machine.openFolder, hmc]; rfl) (.inl (by rw [Machine.openFolder, hunder]; rfl))
      fun g => (loading g).mp⟩
  · rw [folder] at hg hi
    rw [link]
    split at hi
    · rename_i hfg; subst hfg; rw [if_pos hi]
    · rename_i hfg
      rw [if_neg hfg] at hg
      have live := h.folders.named g hg i hi
      rw [if_neg fun hd => by rw [idle i hd] at live; cases live]
      exact live
  · rw [link] at hi
    rw [folder]
    split at hi
    · rename_i hd
      cases hi
      simpa [opened] using hd
    · have named := h.folders.naming i g hi
      rw [if_neg fun e => by subst e; exact named.1 free]
      exact named
  · rw [folder] at hg hk
    split at hg
    · rw [no_bay] at hg; cases hg
    · split at hk
      · rw [no_bay] at hk; cases hk
      · exact h.folders.oneFolder g k b hg hk
  · rw [Machine.openFolder, hmr]; exact (one g).arms
  · rw [Machine.openFolder, hmc]; exact (one g).idle

/-! ## Freeing a folder (R79) -/

theorem account_dropLiveFolder (i j : Fin 64) :
    (dropLiveFolder i s).account j = if i = j then { s.account i with liveFolder := none } else s.account j := by
  simp [dropLiveFolder]

theorem account_dropDrivers (x : Folder) (j : Fin 64) :
    (dropDrivers x s).account j = if j ∈ x.drivers then { s.account j with liveFolder := none } else s.account j := by
  unfold dropDrivers Folder.drivers
  split <;> grind [account_dropLiveFolder]

theorem freeFolder_ok {n : Nat} {m : Mode} {x : Folder} (h : x.Ok n m) (still : x.running = 0) :
    (Folder.free x.compartments).Ok n m :=
  have free_still : (Folder.free x.compartments).running = 0 := still
  ⟨fun _ => rfl, h.length, by simp [Folder.free], by simp [Folder.free], running_le_of_still free_still,
    fun _ => free_still⟩

/-- A folder with no compartment in progress freed; Mode Control is not told yet (R79, R191). -/
theorem State.RecordsOk.freeFolder_beforeNotice (h : s.RecordsOk) {f : Fin 16} (held : (s.folder f).state ≠ .free)
    (still : (s.folder f).running = 0) : (freeFolder f s).BeforeNotice := by
  have link : ∀ j, (freeFolder f s).account j =
      if j ∈ (s.folder f).drivers then { s.account j with liveFolder := none } else s.account j :=
    fun j => account_dropDrivers (s.folder f) j
  have folder : ∀ g, (freeFolder f s).folder g = if f = g then Folder.free (s.folder f).compartments else s.folder g :=
    fun g => by simp [freeFolder, folder_congr (dropDrivers_folders s _)]
  have one : ∀ g, ((freeFolder f s).folder g).Ok s.mr.arms s.mc.mode := fun g => by
    rw [folder]
    split
    · exact freeFolder_ok (h.folders.folder f) still
    · exact h.folders.folder g
  have live : ∀ i ∈ (s.folder f).drivers, (s.account i).liveFolder = some f := h.folders.named f held
  obtain ⟨accounts, alarms⟩ := h.relinked (· ∈ (s.folder f).drivers) link
    (fun j hj hf => by have := live j hj; rw [h.accounts.free j hf] at this; cases this) (by simp)
  refine ⟨accounts, alarms, ⟨fun g => (one g).free, fun g => (one g).length, fun g => (one g).crew, fun g hg i hi => ?_,
    fun i g hi => ?_, fun g => (one g).bay, fun g k b hg hk => ?_, fun g => ?_, fun g => ?_⟩,
    h.slot.of_kept (by simp) (.inl (by simp)) fun g hg => ?_, 
    fun m hm => by simpa using h.beforeNotice.target m (by simpa using hm)⟩
  · rw [folder] at hg hi
    rw [link]
    split at hg
    · exact absurd rfl hg
    · rename_i hfg
      rw [if_neg hfg] at hi
      have named := h.folders.named g hg i hi
      rw [if_neg fun hd => hfg (by simpa [live i hd] using named)]
      exact named
  · rw [link] at hi
    rw [folder]
    split at hi
    · cases hi
    · rename_i hd
      have named := h.folders.naming i g hi
      rw [if_neg fun e => by subst e; exact hd named.2]
      exact named
  · rw [folder] at hg hk
    split at hg
    · cases hg
    · split at hk
      · cases hk
      · exact h.folders.oneFolder g k b hg hk
  · simpa using (one g).arms
  · simpa using (one g).idle
  · rw [folder] at hg
    split at hg
    · cases hg
    · exact hg

/-- A folder outside LOADING freed (R79). -/
theorem State.RecordsOk.freeFolder (h : s.RecordsOk) {f : Fin 16} (held : (s.folder f).state ≠ .free)
    (resting : (s.folder f).state ≠ .loading) : (freeFolder f s).RecordsOk := by
  refine (h.freeFolder_beforeNotice held ((h.folders.folder f).still resting)).records
    (h.mode.of_kept (by simp) (by simp) fun g => ?_)
  simp only [Machine.freeFolder, folder_setFolder, folder_congr (dropDrivers_folders s _)]
  split
  · rename_i hg; subst hg; simp [Folder.free, resting]
  · exact Iff.rfl

end Sys2Proof.Machine
end

section
/-! PROOFS. The records' invariant under loading, its end, the node table, beacons, mode requests and starts. -/

namespace Sys2Proof.Machine

variable {s : State}

/-! ## Loading (R74, R109, R110, R121) -/

/-- The compartments of a LOADING folder written, no more of them in progress than the arms allow, and none outside RUN. -/
theorem State.RecordsOk.writeLoading (h : s.RecordsOk) {f : Fin 16} {x : Folder} (state : (s.folder f).state = .loading)
    (kept : x.state = (s.folder f).state) (primary : x.primary = (s.folder f).primary)
    (second : x.second = (s.folder f).second) (bay : x.bay = (s.folder f).bay)
    (length : x.compartments.length = (s.folder f).compartments.length) (arms : x.running ≤ s.mr.arms)
    (idle : s.mc.mode ≠ .run → x.running = 0) : (s.setFolder f x).RecordsOk := by
  have ok := h.folders.folder f
  refine h.setFolder ⟨fun hf => ?_, by rw [length]; exact ok.length, by rw [primary, second]; exact ok.crew,
    by rw [bay, kept]; exact ok.bay, arms, fun hx => ?_⟩ (by simp [Folder.drivers, primary, second]) (by rw [kept])
    (h.folders.bay_kept (.inl bay)) (by rw [kept])
  · rw [kept, state] at hf; cases hf
  · rcases hx with hx | hx
    · exact absurd (kept.trans state) hx
    · exact idle hx

theorem running_setCompartment {x : Folder} {k : Nat} {c d : Compartment} (held : x.compartments[k]? = some c) :
    (x.setCompartment k d).running + (if c.inProgress then 1 else 0) = x.running + (if d.inProgress then 1 else 0) := by
  obtain ⟨hk, rfl⟩ := List.getElem?_eq_some_iff.mp held
  rw [running_eq_countP, running_eq_countP, Folder.setCompartment, List.countP_set hk]
  have : x.compartments[k].inProgress = true → 0 < x.compartments.countP Compartment.inProgress := fun hp =>
    List.countP_pos_iff.mpr ⟨_, List.getElem_mem hk, hp⟩
  split <;> split <;> simp_all

theorem interruptedFolder_still (x : Folder) : (interruptedFolder x).running = 0 := by
  rw [running_eq_zero]
  intro c hc
  obtain ⟨d, _, rfl⟩ := List.mem_map.mp hc
  exact interrupt_still d

theorem State.RecordsOk.loseBay (h : s.RecordsOk) (n : Fin 8) : (loseBay n s).RecordsOk := by
  unfold Machine.loseBay
  split
  · exact h
  · rename_i f hf
    split
    · have state : (s.folder f).state = .loading := by
        have := lowest_some hf
        simp only [Bool.and_eq_true, beq_iff_eq] at this
        exact this.1
      exact (h.writeLoading (x := interruptedFolder (s.folder f)) state rfl rfl rfl rfl (by simp [interruptedFolder])
        (running_le_of_still (interruptedFolder_still _)) fun _ => interruptedFolder_still _).setAttention _
    · exact h

theorem State.RecordsOk.setNode (h : s.RecordsOk) (n : Fin 9) (e : NodeEntry) : (s.setNode n e).RecordsOk :=
  h.same ⟨rfl, rfl, rfl, rfl, rfl, rfl, .inl rfl⟩

theorem State.RecordsOk.updateNode (h : s.RecordsOk) (n : Fin 9) (e : NodeEntry) : (updateNode n e s).RecordsOk := by
  have noted : (if raisesNode (s.node n).state e.state then Machine.setAttention .node (s.setNode n e)
      else s.setNode n e).RecordsOk := by
    split
    · exact (h.setNode n e).setAttention _
    · exact h.setNode n e
  unfold Machine.updateNode
  dsimp only
  split
  · split
    · exact noted.loseBay _
    · exact noted
  · exact noted

/-- A CARD at an ASSIGNED folder: none of its compartments is in progress yet (R74). -/
theorem State.RecordsOk.beginLoading (h : s.RecordsOk) {f : Fin 16} (state : (s.folder f).state = .assigned)
    (steady : s.mc.pendingTarget = none) (closed : s.underway.frame = none) :
    (s.setFolder f
      { s.folder f with state := .loading, compartments := (s.folder f).compartments.map planned }).RecordsOk := by
  have ok := h.folders.folder f
  have still : ({ s.folder f with
      state := .loading, compartments := (s.folder f).compartments.map planned } : Folder).running = 0 := by
    rw [running_eq_zero]
    intro c hc
    obtain ⟨d, _, rfl⟩ := List.mem_map.mp hc
    exact planned_still d
  have hbay : (s.folder f).bay.isSome := ok.bay.mpr (.inl state)
  refine ⟨h.accounts.of_kept (fun _ => rfl) (fun _ => rfl) fun _ _ => rfl,
    h.alarms.of_kept rfl (fun _ => rfl) fun _ => rfl,
    h.folders.setFolder ⟨fun hf => (by cases hf), ?_, ok.crew, ?_, running_le_of_still still, fun _ => still⟩ rfl ?_
      (h.folders.bay_kept (.inl rfl)), fun m hm => ?_, fun a ha => ?_⟩
  · simpa using ok.length
  · simp [hbay]
  · simp [state]
  · rw [setFolder_mc, steady] at hm; cases hm
  · rw [setFolder_underway, closed] at ha; cases ha

/-! ## The end of loading, VOID and a release (R75, R80, R130) -/

/-- A folder left with its bay given up in one of the states of an evaluation (R76). -/
theorem State.RecordsOk.evaluate_beforeNotice (h : s.RecordsOk) {f : Fin 16} {x : Folder}
    (held : (s.folder f).state ≠ .free) (primary : x.primary = (s.folder f).primary)
    (second : x.second = (s.folder f).second) (bay : x.bay = none)
    (length : x.compartments.length = (s.folder f).compartments.length) (still : x.running = 0) :
    (evaluate f x s).BeforeNotice := by
  have ok := h.folders.folder f
  obtain ⟨free, assigned, loading⟩ := evaluated_bayless x
  have evaluated_still : (evaluated x).running = 0 := still
  refine (h.setFolder_beforeNotice (x := evaluated x) ⟨fun hf => absurd hf free, ?_, ?_, ?_,
    running_le_of_still evaluated_still, fun _ => still⟩ ?_ ?_ ?_ fun hl => absurd hl loading).setAttention _
  · exact length ▸ ok.length
  · exact primary ▸ second ▸ ok.crew
  · simp [assigned, loading, show (evaluated x).bay = none from bay]
  · simp [Folder.drivers, evaluated, primary, second]
  · simp [free, held]
  · exact h.folders.bay_kept (.inr bay)

/-- The end of a folder's loading, its compartments no more in progress (R75). -/
theorem State.RecordsOk.endOfLoading (h : s.RecordsOk) {f : Fin 16} {cs : List Compartment}
    (state : (s.folder f).state = .loading) (length : cs.length = (s.folder f).compartments.length)
    (still : ∀ c ∈ cs, c.inProgress = false) :
    (endOfLoading f { s.folder f with compartments := cs } s).RecordsOk := by
  have ended := h.evaluate_beforeNotice (x := { s.folder f with compartments := cs, bay := none }) (by simp [state])
    rfl rfl rfl length (running_eq_zero.mpr still)
  exact ended.leftLoading

/-- A folder evaluated again outside LOADING (R77). -/
theorem State.RecordsOk.evaluate (h : s.RecordsOk) {f : Fin 16} {x : Folder} (held : (s.folder f).state ≠ .free)
    (resting : (s.folder f).state ≠ .loading) (primary : x.primary = (s.folder f).primary)
    (second : x.second = (s.folder f).second) (bay : x.bay = none)
    (length : x.compartments.length = (s.folder f).compartments.length) (still : x.running = 0) :
    (evaluate f x s).RecordsOk := by
  refine (h.evaluate_beforeNotice held primary second bay length still).records (h.mode.of_kept rfl rfl fun g => ?_)
  rw [Machine.evaluate, folder_setAttention, folder_setFolder]
  split
  · rename_i hg
    subst hg
    simp [resting, (evaluated_bayless x).2.2]
  · exact Iff.rfl

theorem appendEntry_same (e : LogEntry) : SameRecords s (appendEntry e s) :=
  ⟨by simp, by simp, by simp, by simp, by simp, by simp, .inl (by simp)⟩

theorem voidLogged_same (arrival : Nat) (f : Fin 16) : SameRecords s (voidLogged arrival f s) :=
  ⟨by simp, by simp, by simp, by simp, by simp, by simp, .inl (by simp)⟩

/-- VOID's second step leaves no compartment of the folder in progress (R80, R117). -/
theorem State.RecordsOk.voidStops (h : s.RecordsOk) (f : Fin 16) :
    (voidStops f s).RecordsOk ∧ ((voidStops f s).folder f).running = 0 ∧
      ((voidStops f s).folder f).state = (s.folder f).state := by
  have ok := h.folders.folder f
  unfold Machine.voidStops
  split
  · rename_i b state _
    have still : ({ s.folder f with
        compartments := (s.folder f).compartments.map (voidRunning b) } : Folder).running = 0 := by
      rw [running_eq_zero]
      intro c hc
      obtain ⟨d, _, rfl⟩ := List.mem_map.mp hc
      exact voidRunning_still b d
    refine ⟨h.writeLoading state rfl rfl rfl rfl (by simp) (running_le_of_still still) fun _ => still, ?_, ?_⟩
    · rw [folder_setFolder, if_pos rfl]; exact still
    · rw [folder_setFolder, if_pos rfl]
  · rename_i hno
    refine ⟨h, ok.still fun hl => ?_, rfl⟩
    obtain ⟨b, hb⟩ := Option.isSome_iff_exists.mp (ok.bay.mpr (.inr hl))
    exact hno b hl hb

theorem State.RecordsOk.voided (h : s.RecordsOk) {f : Fin 16} (arrival : Nat) (held : (s.folder f).state ≠ .free) :
    (if (s.folder f).state = .loading then
      Machine.leftLoading (Machine.freeFolder f (Machine.voidStops f (voidLogged arrival f s)))
      else Machine.freeFolder f (Machine.voidStops f (voidLogged arrival f s))).RecordsOk := by
  obtain ⟨stopped, still, state⟩ := (h.same (voidLogged_same arrival f)).voidStops f
  rw [folder_congr (voidLogged_same arrival f).folders] at state
  split
  · exact (stopped.freeFolder_beforeNotice (state ▸ held) still).leftLoading
  · rename_i resting
    exact stopped.freeFolder (state ▸ held) (state ▸ resting)

theorem State.RecordsOk.grantRelease (h : s.RecordsOk) {f : Fin 16} (arrival : Nat) (state : (s.folder f).state = .ready) :
    (grantRelease f arrival s).RecordsOk := by
  have appended := fun e => appendEntry_same (s := s) e
  have kept := fun e => folder_congr (appended e).folders f
  unfold Machine.grantRelease
  dsimp only
  refine (h.same (appended _)).moveBayless ?_ ?_ ?_ ?_ ?_ ?_
  all_goals simp [kept, state, FolderState.bayless]

/-! ## Beacons (R171) -/

theorem State.RecordsOk.carryFolders (l : List (Fin 16)) :
    ∀ (room : Nat) {s : State}, s.RecordsOk → (carryFolders l room s).RecordsOk := by
  induction l with
  | nil => exact fun _ _ h => h
  | cons f rest ih =>
    intro room s h
    have ok := h.folders.folder f
    have loading := carryStops_loading (s.folder f).compartments room
    refine ih _ (h.setFolder ?_ rfl Iff.rfl (h.folders.bay_kept (.inl rfl)) Iff.rfl)
    have hrun : ({ s.folder f with compartments := (carryStops room (s.folder f).compartments).1 } : Folder).running
        = (s.folder f).running := by
      rw [running_eq_countP, running_eq_countP, countP_inProgress_congr loading]
    have hlen : (carryStops room (s.folder f).compartments).1.length = (s.folder f).compartments.length := by
      simpa using congrArg List.length loading
    exact ⟨fun hf => by rw [ok.free hf]; rfl, by rw [hlen]; exact ok.length, ok.crew, ok.bay,
      by rw [hrun]; exact ok.arms, by rw [hrun]; exact ok.idle⟩

theorem State.RecordsOk.sendBeacon (h : s.RecordsOk) : (sendBeacon s).RecordsOk := by
  have carried := State.RecordsOk.carryFolders (List.finRange 16) beaconRoom h
  unfold Machine.sendBeacon
  generalize Machine.carryFolders (List.finRange 16) beaconRoom s = t at carried
  exact carried.same ⟨rfl, rfl, rfl, rfl, rfl, rfl, .inr rfl⟩

/-! ## Mode requests (R188, R189) -/

/-- The mode written where no pending target stands: into RUN, between CONFIG and LISTEN, or out of RUN with no folder
LOADING. -/
theorem State.RecordsOk.setMode (h : s.RecordsOk) {m : Mode} (steady : s.mc.pendingTarget = none)
    (leaves : m ≠ .run → s.mc.mode = .run → ∀ f, (s.folder f).state ≠ .loading) : (s.setMode m).RecordsOk := by
  refine ⟨h.accounts.of_kept (fun _ => rfl) (fun _ => rfl) fun _ _ => rfl,
    h.alarms.of_kept rfl (fun _ => rfl) fun _ => rfl,
    ⟨h.folders.free, h.folders.length, h.folders.crew, h.folders.named, h.folders.naming, h.folders.bay,
      h.folders.oneFolder, h.folders.arms, fun f hf => h.folders.idle f ?_⟩, fun t ht => ?_, fun a ha har hm f => ?_⟩
  · by_cases hr : s.mc.mode = .run
    · exact .inl (hf.elim id fun hm => leaves hm hr f)
    · exact .inr hr
  · rw [setMode_mc, steady] at ht; cases ht
  · by_cases hr : s.mc.mode = .run
    · exact leaves hm hr f
    · exact h.slot a ha har hr f

theorem State.RecordsOk.setPendingTarget (h : s.RecordsOk) {t : Option Mode}
    (waits : ∀ m, t = some m → s.mc.mode = .run ∧ m ≠ .run ∧ s.loadingCount ≠ 0) :
    (s.setPendingTarget t).RecordsOk :=
  ⟨h.accounts.of_kept (fun _ => rfl) (fun _ => rfl) fun _ _ => rfl, h.alarms.of_kept rfl (fun _ => rfl) fun _ => rfl,
    h.folders.of_kept rfl rfl rfl fun _ => rfl, waits, h.slot.of_kept rfl (.inl rfl) fun _ => id⟩

theorem State.RecordsOk.requestedMode (h : s.RecordsOk) {m : Mode} {t : State} (ht : requestedMode m s = some t) :
    t.RecordsOk := by
  unfold Machine.requestedMode at ht
  split at ht
  · rename_i run
    split at ht
    · rename_i steady
      (repeat' split at ht) <;> cases ht
      · exact h
      · rename_i hl
        exact h.setMode steady fun _ _ => loadingCount_eq_zero.mp hl
      · rename_i hm hl
        exact h.setPendingTarget fun k hk => by cases hk; exact ⟨run, hm, hl⟩
    · rename_i old pending
      split at ht <;> cases ht
      · exact h.setPendingTarget fun k hk => by cases hk
      · rename_i hm
        exact h.setPendingTarget fun k hk => by cases hk; exact ⟨run, hm, (h.mode old pending).2.2⟩
  · rename_i out
    have steady : s.mc.pendingTarget = none := by
      cases hp : s.mc.pendingTarget with
      | none => rfl
      | some k => exact absurd (h.mode k hp).1 (by simpa using out)
    have here : s.mc.mode ≠ .run := by simpa using out
    (repeat' split at ht) <;> cases ht
    · exact h.setMode steady fun _ hr => absurd hr here
    · exact h.setMode steady fun _ hr => absurd hr here

/-! ## Starts (R60, R122, R195 to R198) -/

/-- The cold values with an empty alarm list, in CONFIG and with no frame waiting, meet the invariant (R195, R198). -/
theorem coldRecords (s : State) : (commonStart (coldValues s)).RecordsOk := by
  have account : ∀ i, (commonStart (coldValues s)).account i = Account.free := fun i => by
    simp [State.account, commonStart, coldValues, State.reset]
  have folder : ∀ f, (commonStart (coldValues s)).folder f = Folder.free [Compartment.starting 100] := fun f => by
    simp [State.folder, commonStart, coldValues, State.reset]
  have still : (Folder.free [Compartment.starting 100]).running = 0 := rfl
  refine ⟨⟨fun i _ => account i, fun i hi => ?_, fun i _ hi => ?_⟩, ⟨.nil, .nil, fun e he => ?_⟩,
    ⟨fun f _ => ?_, fun f => ?_, fun f => ?_, fun f hf => ?_, fun i f hi => ?_, fun f => ?_, fun f _ b hb => ?_,
      fun f => ?_, fun f _ => ?_⟩, fun m hm => ?_, fun a ha => ?_⟩
  · rw [account] at hi; exact absurd rfl hi
  · rw [account] at hi; exact absurd rfl hi
  · cases he
  · rw [folder]; rfl
  · rw [folder]; decide
  · rw [folder]; decide
  · rw [folder] at hf; exact absurd rfl hf
  · rw [account] at hi; cases hi
  · rw [folder]; decide
  · rw [folder] at hb; cases hb
  · rw [folder, still]; exact Nat.zero_le _
  · rw [folder, still]
  · cases hm
  · cases ha

theorem State.RecordsOk.setLastStart (h : s.RecordsOk) (k : StartKind) (c : StartCause) : (s.setLastStart k c).RecordsOk :=
  h.same ⟨rfl, rfl, rfl, rfl, rfl, rfl, .inl rfl⟩

theorem coldStart_records (cause : StartCause) (s : State) : (coldStart cause s).RecordsOk :=
  ((coldRecords s).setAttention .clock).startAlarms.setLastStart _ _

/-- A folder as the interruption of a warm start leaves it (R122). -/
def startInterrupted (x : Folder) : Folder :=
  { interruptedFolder x with compartments := (interruptedFolder x).compartments.map clearStop }

theorem folder_startInterruptOne (f g : Fin 16) :
    (startInterruptOne f s).folder g = if f = g then startInterrupted (s.folder f) else s.folder g := by
  unfold startInterruptOne
  dsimp only
  split <;> simp [startInterrupted]

theorem folder_foldl_startInterruptOne (g : Fin 16) (l : List (Fin 16)) :
    ∀ s : State, l.Nodup → (l.foldl (fun s f => startInterruptOne f s) s).folder g =
      if g ∈ l then startInterrupted (s.folder g) else s.folder g := by
  induction l with
  | nil => intro s _; rfl
  | cons f rest ih =>
    intro s hl
    obtain ⟨hf, hrest⟩ := List.nodup_cons.mp hl
    rw [List.foldl_cons, ih _ hrest, folder_startInterruptOne]
    by_cases hg : f = g
    · subst hg; simp [hf]
    · have : g ≠ f := fun e => hg e.symm
      simp [hg, this]

/-- A warm start interrupts every folder (R122). -/
theorem folder_startInterruption (f : Fin 16) : (startInterruption s).folder f = startInterrupted (s.folder f) :=
  (folder_foldl_startInterruptOne f (List.finRange 16) s (List.nodup_finRange 16)).trans (if_pos (List.mem_finRange f))

theorem startInterrupted_still (x : Folder) : (startInterrupted x).running = 0 := by
  rw [running_eq_zero]
  intro c hc
  obtain ⟨d, hd, rfl⟩ := List.mem_map.mp hc
  exact running_eq_zero.mp (interruptedFolder_still x) d hd

/-- The interruption leaves a sound folder sound in CONFIG. -/
theorem Folder.Ok.startInterrupted {n : Nat} {m : Mode} {x : Folder} (h : x.Ok n m) :
    (startInterrupted x).Ok n .config := by
  have still := startInterrupted_still x
  refine ⟨fun hf => ?_, by simpa [Machine.startInterrupted, interruptedFolder] using h.length, h.crew, h.bay,
    by rw [still]; exact Nat.zero_le _, fun _ => still⟩
  have free : x.state = .free := hf
  have quiet : x.compartments.any Compartment.inProgress = false := by
    simpa using running_eq_zero.mp (h.still (by simp [free]))
  have bare := h.free free
  generalize x.compartments = cs at bare quiet
  subst bare
  simp [Machine.startInterrupted, interruptedFolder, Folder.free, quiet]

theorem State.RecordsOk.interrupted (h : s.RecordsOk) (a : AttentionFlag) :
    (startInterruption (Machine.setAttention a (commonStart s))).RecordsOk := by
  have account : ∀ i, (startInterruption (Machine.setAttention a (commonStart s))).account i = s.account i :=
    account_congr (by simp [commonStart])
  have folder : ∀ f, (startInterruption (Machine.setAttention a (commonStart s))).folder f
      = startInterrupted (s.folder f) := fun f => folder_startInterruption f
  have ok := fun f => (h.folders.folder f).startInterrupted
  refine ⟨h.accounts.of_kept (fun i => by rw [account]) (fun i => by rw [account]) fun i _ => account i,
    ⟨?_, ?_, fun e he => ?_⟩, ⟨?_, ?_, ?_, ?_, ?_, ?_, ?_, ?_, ?_⟩, fun m hm => ?_, fun b hb => ?_⟩
  · simp [commonStart]
  · simp [commonStart]
  · simp [commonStart] at he
  all_goals try simp only [folder, account]
  · exact fun f => (ok f).free
  · exact fun f => (ok f).length
  · exact fun f => (ok f).crew
  · exact h.folders.named
  · exact h.folders.naming
  · exact fun f => (ok f).bay
  · exact h.folders.oneFolder
  · simpa [commonStart] using fun f => (ok f).arms
  · exact fun f _ => (ok f).idle (.inr (by simp))
  · simp [commonStart] at hm
  · simp [commonStart, State.discardUnderway] at hb

theorem State.RecordsOk.warmStart (h : s.RecordsOk) (cause : StartCause) : (warmStart cause s).RecordsOk :=
  (h.interrupted .restart).startAlarms.setLastStart _ _

end Sys2Proof.Machine
end

section
/-! PROOFS. Every change keeps the records, so every step does. -/

namespace Sys2Proof.Machine

variable {late : Prop} {s t : State}

/-- A change of records the invariant does not read. -/
theorem State.RecordsOk.of_unread (h : s.RecordsOk) (accounts : t.accounts = s.accounts) (hu : t.hu = s.hu)
    (folders : t.folders = s.folders) (mr : t.mr = s.mr) (mc : t.mc = s.mc)
    (frame : t.underway.frame = s.underway.frame ∨ t.underway.frame = none) : t.RecordsOk :=
  h.same ⟨accounts, by rw [hu], folders, mr, by rw [mc], by rw [mc], frame⟩

/-- New metering settings in CONFIG, where no compartment is in progress (R107). -/
theorem State.RecordsOk.setMetering (h : s.RecordsOk) (m : MeterSettings) (config : s.mc.mode = .config) :
    ({ s with mr := m } : State).RecordsOk where
  accounts := h.accounts.of_kept (fun _ => rfl) (fun _ => rfl) fun _ _ => rfl
  alarms := h.alarms.of_kept rfl (fun _ => rfl) fun _ => rfl
  folders := { h.folders with
    arms := fun f => running_le_of_still (h.folders.idle f (.inr (by simp [config]))) }
  mode := h.mode.of_kept rfl rfl fun _ => Iff.rfl
  slot := h.slot.of_kept rfl (.inl rfl) fun _ => id

theorem Change.keeps_records (hl : ¬late) (h : s.RecordsOk) (c : Change late s t) : t.RecordsOk := by
  have ok := h.folders.folder
  cases c with
  -- what the invariant does not read
  | portMoved | replyPlaced | flagsWritten | enablesWritten | denied | pinsWritten | rightsWritten | counted
  | boundaryOwed | substanceWritten | substanceCleared | thresholdWritten | logAcknowledged | levelWritten
  | linkWritten | nodeReadmitted | placeReserved | replyJoined | placeGivenUp =>
    exact h.of_unread rfl rfl rfl rfl rfl (.inl rfl)
  | cleared | discarded | slotClosed => exact h.of_unread rfl rfl rfl rfl rfl (.inr rfl)
  | goodHeard n => exact h.of_unread (by simp) (by simp) (by simp) (by simp) (by simp) (.inr (by simp))
  | frameReceived n => exact h.frameReceived n
  -- accounts
  | accountOpened i card p e x arrival free real new past =>
    exact (((h.openAccount free real new).expiryTest i).raiseHighWater arrival).recompute i
  | accountEdited i card p e x held real new => exact h.editRecord held real new
  | accountMarked i st al u held kept =>
    exact h.rewriteAccount held kept rfl rfl fun ⟨e, he, hi⟩ => hi ▸ (h.alarms.working e he).2
  | accountResumed i held =>
    exact (h.rewriteAccount (a := { s.account i with state := .active }) held (by simp) rfl rfl
      fun ⟨e, he, hi⟩ => hi ▸ (h.alarms.working e he).2).expiryTest i
  | accountClosed i held idle => exact h.closeAccount idle
  | statusChanged i new time => exact h.changeStatus i new time
  -- profiles, clock
  | profileWritten p l => exact (h.setProfile p _).recomputeProfile p
  | profilePending p l => exact h.setProfile p _
  | profileCancelled p => exact h.setProfile p _
  | timeSet value offset => exact State.RecordsOk.timeJump (h.setTc _) _
  | timeAdjusted n => exact State.RecordsOk.timeJump (h.setTc _) _
  | boundaryTaken => exact h.takeMinuteBoundary
  | dayChecked => exact h.dayCheck
  -- folders
  | folderCreated f tanker p q drive duty capacities arrival free quiet crew length active idle =>
    exact h.openFolder free (openedFolder_ok _ _ crew length) rfl (fun i hi => by simp [active i hi]) idle
  | folderPlanned f k c capacity substance declared held state =>
    exact h.rewriteFolder rfl (by simp [state]) rfl rfl rfl (map_loading_set held rfl)
  | papersWritten f lines state => exact h.rewriteFolder rfl (by simp [state]) rfl rfl rfl rfl
  | tripWritten f drive duty held => exact h.rewriteFolder rfl held rfl rfl rfl rfl
  | folderRead f held => exact h.rewriteFolder rfl held rfl rfl rfl rfl
  | releaseRefused f reasons state => exact h.rewriteFolder rfl (by simp [state]) rfl rfl rfl rfl
  | folderSubmitted f placards state =>
    exact h.moveBayless (by simp [state, FolderState.bayless]) (by simp [FolderState.bayless]) rfl rfl rfl rfl
  | folderReopened f state =>
    exact h.moveBayless (by simp [state, FolderState.bayless]) (by simp [FolderState.bayless]) rfl rfl rfl rfl
  | bayAssigned f b state free =>
    exact h.moveFolder (by simp [state]) (by simp [state]) (by simp) (by simp) rfl rfl (by simp) rfl
      (fun c hc => by cases hc; exact bayBusy_false free)
  | bayUnassigned f state =>
    exact h.moveFolder (by simp [state]) (by simp [state]) (by simp) (by simp) rfl rfl (by simp) rfl (by simp)
  | overridden f state =>
    have waiting : (s.folder f).state.bayless := by rcases state with e | e <;> simp [FolderState.bayless, e]
    exact (h.moveBayless (x := { s.folder f with
      state := .ready, overrideMark := true, holdReasons := ⟨false, false⟩, unread := true })
      waiting (by simp [FolderState.bayless]) rfl rfl rfl rfl).setAttention _
  | amended f k c declared held state =>
    obtain ⟨used, unassigned, resting⟩ : (s.folder f).state.bayless := by
      rcases state with e | e <;> simp [FolderState.bayless, e]
    have loading := map_loading_set (d := reconcile s.mr { c with declared := declared }) held (reconcile_loading _ _)
    refine h.evaluate used resting rfl rfl ((ok f).bay_none unassigned resting) ?_ ?_
    · simp [Folder.setCompartment]
    · rw [← (ok f).still resting, running_eq_countP, running_eq_countP, Folder.setCompartment,
        countP_inProgress_congr loading]
  | voided f arrival past held room =>
    exact h.voided arrival held.1
  | finished f cs state length still =>
    exact h.endOfLoading state length still
  | released f arrival past state => exact h.grantRelease arrival state
  | left f state => exact h.freeFolder (by simp [state]) (by simp [state])
  -- tables
  | pairWritten g k r =>
    have written : (s.setCells g k r).RecordsOk := h.of_unread rfl rfl rfl rfl rfl (.inl rfl)
    exact written.returnAffected g k
  | meteringWritten m range config => exact h.setMetering m config
  -- modes and starts
  | modeRequested m t ht => exact h.requestedMode ht
  | coldStarted cause => exact coldStart_records cause s
  | warmStarted cause => exact h.warmStart cause
  -- the link
  | damagedHeard n | silenceHeard n => exact h.updateNode n _
  | loadingBegun f state steady closed => exact h.beginLoading state steady closed
  | compartmentStarted f k c held state run waits arms =>
    have count := running_setCompartment (d := { c with loading := .permitted }) held
    have planned : c.inProgress = false := by simp [Compartment.inProgress, waits, LoadingState.inProgress]
    have started : ({ c with loading := .permitted } : Compartment).inProgress = true := rfl
    simp only [planned, started, if_true, Bool.false_eq_true, if_false] at count
    exact h.writeLoading state rfl rfl rfl rfl (by simp [Folder.setCompartment]) (by omega)
      fun hm => absurd (run.resolve_right hl) hm
  | compartmentReported f k c d held state runs plan grows =>
    have count := running_setCompartment (d := d) held
    simp only [runs, if_true] at count
    have arms := (ok f).arms
    have some_run : (s.folder f).running ≠ 0 := fun e => by
      have := running_eq_zero.mp e c (List.mem_of_getElem? held)
      simp [runs] at this
    refine h.writeLoading state rfl rfl rfl rfl (by simp [Folder.setCompartment]) ?_
      fun hm => absurd ((ok f).idle (.inr hm)) some_run
    split at count <;> omega
  | beaconSent => exact h.sendBeacon

/-- A step runs one command on the rest of the queue, or idles (log 5). -/
theorem step_cases (h : step s = .next t) : t = s ∨ ∃ i rest, exec i { s with pending := rest } = .next t := by
  unfold step at h
  split at h
  · cases h; exact .inl rfl
  · exact .inr ⟨_, _, h⟩

end Sys2Proof.Machine

open Sys2Proof Sys2Proof.Machine in
/-- Settles O13: a step is a run of changes (`exec_changes`), each of which keeps the invariant; a START outside RUN, which
one of them allows for, would need the slot's part of the invariant to fail. -/
theorem stepKeepsTheRecords : Obligations.StepKeepsTheRecords := by
  intro s t h hstep
  rcases step_cases hstep with rfl | ⟨i, rest, hexec⟩
  · exact h
  · have queued : ({ s with pending := rest } : State).RecordsOk := h.of_unread rfl rfl rfl rfl rfl (.inl rfl)
    exact (exec_changes hexec).keeps (fun _ _ hs c => c.keeps_records (not_not_intro queued.slot) hs) queued
end

section
/-! PROOFS. The office commands that write an account: what each admitted command leaves (R5 to R11, R20). -/

namespace Sys2Proof.Machine

variable {s : State} {o : OfficeFrame}

/-! ## Commands on one account -/

theorem onAccount_held {index : Byte} {i : Fin 64} {act : Fin 64 → State → Answer} (hi : index.toNat = i.val)
    (held : (s.account i).state ≠ .free) : onAccount index act s = act i s := by
  simp [onAccount, indexOf_some.mpr hi, held]

theorem onAccount_free {index : Byte} {i : Fin 64} {act : Fin 64 → State → Answer} (hi : index.toNat = i.val)
    (free : (s.account i).state = .free) : onAccount index act s = answerRefused s .unknownDriver := by
  simp [onAccount, indexOf_some.mpr hi, free]

theorem onAccount_beyond {index : Byte} {act : Fin 64 → State → Answer} (hi : 63 < index.toNat) :
    onAccount index act s = answerRefused s .range := by
  simp [onAccount, indexOf_none.mpr hi]

/-- The expiry test on an ACTIVE account whose record is being written (R19). -/
theorem expiryTest_setAccount {i : Fin 64} {a : Account} (active : a.state = .active) :
    expiryTest i (s.setAccount i a)
      = if a.expiry < s.today then raiseAlarm i .expired (s.setAccount i a) else s.setAccount i a := by
  simp [expiryTest, active]

/-! ## SUSPEND, CLOSE, CLEAR LATE and READ ACCOUNT (R7, R9, R10, R20) -/

theorem suspendAccount_completes {index : Byte} {i : Fin 64} (h : s.admits o (.grouped .accountEdit))
    (hi : index.toNat = i.val) (active : (s.account i).state = .active) :
    exec (.suspendAccount o index) s = answersOk .suspendAccount o []
      ((seen .suspendAccount o s).setAccount i { s.account i with state := .suspended }) := by
  refine officeCommand_ok h ?_
  rw [onAccount_held hi (by simp [active]), suspendAnswer, if_neg (by simp [active])]
  rfl

theorem closeAccount_completes {index : Byte} {i : Fin 64} (h : s.admits o (.grouped .accountEdit))
    (hi : index.toNat = i.val) (held : (s.account i).state ≠ .free) (idle : (s.account i).liveFolder = none) :
    exec (.closeAccount o index) s = answersOk .closeAccount o []
      { (seen .closeAccount o s).setAccount i Account.free with
        hu := { s.hu with alarms := s.hu.alarms.filter (fun e => e.account != i) } } := by
  refine officeCommand_ok h ?_
  rw [onAccount_held hi (by simpa using held), closeAnswer, if_neg (by simp [idle])]
  rfl

theorem clearLate_completes {index : Byte} {i : Fin 64} (h : s.admits o (.grouped .statusSet))
    (hi : index.toNat = i.val) (held : (s.account i).state ≠ .free) :
    exec (.clearLate o index) s = answersOk .clearLate o []
      ((seen .clearLate o s).setAccount i
        { s.account i with alarms := withoutMember (s.account i).alarms AlarmFlag.late.bit }) := by
  refine officeCommand_ok h ?_
  rw [onAccount_held hi (by simpa using held)]
  rfl

theorem readAccount_completes {index : Byte} {i : Fin 64} (h : s.admits o .read) (hi : index.toNat = i.val)
    (held : (s.account i).state ≠ .free) :
    exec (.readAccount o index) s = answersOk .readAccount o (s.account i).bytes
      ((seen .readAccount o s).setAccount i { s.account i with unread := false }) := by
  refine officeCommand_ok h ?_
  rw [onAccount_held hi (by simpa using held)]
  rfl

/-! ## RESUME ACCOUNT (R8, R19) -/

theorem resumeAccount_range {index : Byte} (h : s.admits o (.grouped .accountEdit)) (hi : 63 < index.toNat) :
    exec (.resumeAccount o index) s = refusesWith .resumeAccount o .range s :=
  officeCommand_refused h (onAccount_beyond hi)

theorem resumeAccount_free {index : Byte} {i : Fin 64} (h : s.admits o (.grouped .accountEdit)) (hi : index.toNat = i.val)
    (free : (s.account i).state = .free) :
    exec (.resumeAccount o index) s = refusesWith .resumeAccount o .unknownDriver s :=
  officeCommand_refused h (onAccount_free hi free)

theorem resumeAccount_active {index : Byte} {i : Fin 64} (h : s.admits o (.grouped .accountEdit))
    (hi : index.toNat = i.val) (active : (s.account i).state = .active) :
    exec (.resumeAccount o index) s = refusesWith .resumeAccount o .badState s := by
  refine officeCommand_refused h ?_
  rw [onAccount_held hi (by simp [active]), resumeAnswer, if_pos (by simp [active])]

theorem resumeAccount_suspended {index : Byte} {i : Fin 64} (h : s.admits o (.grouped .accountEdit))
    (hi : index.toNat = i.val) (suspended : (s.account i).state = .suspended) :
    exec (.resumeAccount o index) s = answersOk .resumeAccount o []
      (let u := (seen .resumeAccount o s).setAccount i { s.account i with state := .active }
      if (s.account i).expiry < s.today then raiseAlarm i .expired u else u) := by
  refine officeCommand_ok h ?_
  rw [onAccount_held hi (by simp [suspended]), resumeAnswer, if_neg (by simp [suspended]), expiryTest_setAccount rfl]
  rfl

/-! ## SET STATUS (R11, R13) -/

theorem byte1_code_of_ofCode {b : Byte} {st : Status} (h : Status.ofCode b = some st) : byte1 st.code = [b] := by
  unfold Status.ofCode at h
  split at h
  · cases h; simp_all [byte1, Status.code]
  · split at h
    · cases h; simp_all [byte1, Status.code]
    · split at h
      · cases h; simp_all [byte1, Status.code]
      · cases h

/-- A status change of a non-FREE account at a time not in the future is never refused (R13). -/
theorem changeStatus_held {i : Fin 64} {new : Status} {time : Nat} (held : (s.account i).state ≠ .free)
    (past : time ≤ s.tc.clock) :
    changeStatus i new time s =
      ⟨if (s.account i).status = new then noteLate i time s
        else applyStatus i new (max time (s.account i).since) (noteLate i time s), none,
        max time (s.account i).since⟩ := by
  rw [changeStatus, if_neg held, if_neg (by omega)]
  dsimp only
  split <;> rfl

theorem setStatus_completes {index status : Byte} {time : BitVec 32} {i : Fin 64} {new : Status}
    (h : s.admits o (.grouped .statusSet)) (hi : index.toNat = i.val) (hnew : Status.ofCode status = some new)
    (held : (s.account i).state ≠ .free) (past : time.toNat ≤ s.tc.clock) :
    exec (.setStatus o index status time) s = answersOk .setStatus o
      (bytes4 (max time.toNat (s.account i).since) ++ [status])
      (if (s.account i).status = new then noteLate i time.toNat (seen .setStatus o s)
        else applyStatus i new (max time.toNat (s.account i).since) (noteLate i time.toNat (seen .setStatus o s))) := by
  refine officeCommand_ok h ?_
  simp only [setStatusAnswer, indexOf_some.mpr hi, hnew]
  rw [changeStatus_held (s := seen .setStatus o s) (by simpa using held) (by simpa using past)]
  simp only [byte1_code_of_ofCode hnew, account_seen]
  rfl

/-- A late mark leaves the limits the account is read against as they were. -/
theorem limitsOf_noteLate (i : Fin 64) (time : Nat) :
    (noteLate i time s).limitsOf ((noteLate i time s).account i) = s.limitsOf (s.account i) := by
  have profile : ((noteLate i time s).account i).profile = (s.account i).profile := by
    unfold noteLate
    split
    · rw [account_raiseAlarm, if_pos rfl, raised_profile]
    · rfl
  rw [State.limitsOf, profile]
  cases h : (s.account i).profile <;> simp [State.limitsOf, State.profile, h]

/-! ## OPEN ACCOUNT (R5, R19) -/

theorem setAccount_setAccount (s : State) (i : Fin 64) (a b : Account) :
    (s.setAccount i a).setAccount i b = s.setAccount i b := by
  simp [State.setAccount]

/-- A flag raised on a record just written without it. -/
theorem raiseAlarm_setAccount {i : Fin 64} {a : Account} {k : AlarmFlag} (clear : a.hasAlarm k = false) :
    raiseAlarm i k (s.setAccount i a) = setAttention .alarm (s.setAccount i (a.setAlarm k)) := by
  rw [raiseAlarm, account_setAccount_self, if_neg (by simp [clear]), setAccount_setAccount]

/-- An account in REST has no alarm to come (R55). -/
theorem recompute_rest {i : Fin 64} (rest : (s.account i).status = .rest) : recompute i s = s.removeAlarm i := by
  have rest' : ((s.removeAlarm i).account i).status = .rest := rest
  rw [recompute, recomputeAt, placeAlarm]
  split
  · rfl
  · rw [rest']

/-- The record OPEN ACCOUNT leaves, its expiry tested (R5, R19). -/
def openedTested (card : Nat) (p : ProfileLetter) (endorsements : Byte) (expiry arrival : Nat)
    (expired : Bool) : Account :=
  { openedRecord card p endorsements expiry arrival with
    alarms := if expired then withMember 0 AlarmFlag.expired.bit else 0
    unread := expired }

theorem expiryTest_opened {i : Fin 64} {card : Nat} {p : ProfileLetter} {e : Byte} {expiry arrival : Nat} {expired : Bool}
    (he : expired = decide (expiry < s.today)) :
    expiryTest i (s.setAccount i (openedRecord card p e expiry arrival)) =
      { s.setAccount i (openedTested card p e expiry arrival expired) with
        op := { s.op with flags := if expired then withMember s.op.flags AttentionFlag.alarm.bit else s.op.flags } } := by
  have clear : (openedRecord card p e expiry arrival).hasAlarm .expired = false :=
    show hasMember (0 : MemberSet 5) AlarmFlag.expired.bit = false by decide
  rw [expiryTest_setAccount rfl, show (openedRecord card p e expiry arrival).expiry = expiry from rfl]
  by_cases lapsed : expiry < s.today
  · rw [if_pos lapsed, raiseAlarm_setAccount clear, he, decide_eq_true lapsed]
    rfl
  · rw [if_neg lapsed, he, decide_eq_false lapsed]
    rfl

theorem openAccount_completes {card : BitVec 32} {profile endorsements : Byte} {expiry : BitVec 16} {p : ProfileLetter}
    {i : Fin 64} (h : s.admits o (.grouped .accountEdit)) (hp : ProfileLetter.ofCode profile = some p) (real : card ≠ 0)
    (classes : hasMember endorsements 0 = false) (new : s.findCard card.toNat = none) (place : s.freeAccount = some i) :
    exec (.openAccount o card profile endorsements expiry) s = answersOk .openAccount o (byte1 i.val)
      (recompute i ((expiryTest i ((seen .openAccount o s).setAccount i
        (openedRecord card.toNat p endorsements expiry.toNat s.officeArrival))).raiseHighWater s.officeArrival)) := by
  refine officeCommand_ok h ?_
  simp [openAccountAnswer, hp, show ¬card = 0#32 from real, endorsementsOk, classes, new, place]

/-! ## EDIT ACCOUNT (R6, R19) -/

theorem editAccount_completes {index : Byte} {card : BitVec 32} {profile endorsements : Byte} {expiry : BitVec 16}
    {p : ProfileLetter} {i : Fin 64} (h : s.admits o (.grouped .accountEdit)) (hi : index.toNat = i.val)
    (hp : ProfileLetter.ofCode profile = some p) (real : card ≠ 0) (classes : hasMember endorsements 0 = false)
    (held : (s.account i).state ≠ .free) (new : s.cardElsewhere i card.toNat = false)
    (idle : (s.account i).card = some card.toNat ∨ (s.account i).liveFolder = none) :
    exec (.editAccount o index card profile endorsements expiry) s = answersOk .editAccount o []
      (editRecord i card.toNat p endorsements expiry.toNat (seen .editAccount o s)) := by
  refine officeCommand_ok h ?_
  have stays : ¬((s.account i).card ≠ some card.toNat ∧ (s.account i).liveFolder.isSome = true) := by
    rcases idle with e | e <;> simp [e]
  simp [editAccountAnswer, indexOf_some.mpr hi, hp, show ¬card = 0#32 from real, endorsementsOk, classes, held, new,
    stays]

/-- EDIT ACCOUNT recomputes where the profile changes, then tests the expiry (R6). -/
theorem editRecord_eq (i : Fin 64) (card : Nat) (p : ProfileLetter) (e : Byte) (x : Nat) (s : State) :
    editRecord i card p e x s =
      (let a := s.account i
      let w := s.setAccount i { a with card := some card, profile := p, endorsements := e, expiry := x }
      clearExpired i (expiryTest i (if a.profile = p then w else recompute i w))) := by
  unfold editRecord
  by_cases same : (s.account i).profile = p
  · simp only [same, ne_eq, not_true_eq_false, if_true, if_false]
  · simp only [same, ne_eq, not_false_eq_true, if_true, if_false]

/-- The expiry test and the clearing of R6: one of them at most acts. -/
theorem clearExpired_expiryTest (i : Fin 64) :
    clearExpired i (expiryTest i s) =
      if s.today ≤ (s.account i).expiry then s.setAccount i ((s.account i).clearAlarm .expired)
      else if (s.account i).state = .active then raiseAlarm i .expired s else s := by
  by_cases today : s.today ≤ (s.account i).expiry
  · rw [if_pos today, expiryTest, if_neg (by omega), clearExpired, if_pos today]
  · have lapsed : ¬(expiryTest i s).today ≤ ((expiryTest i s).account i).expiry := by
      unfold expiryTest
      split
      · simpa [account_raiseAlarm] using today
      · exact today
    rw [if_neg today, clearExpired, if_neg lapsed, expiryTest]
    simp [Nat.lt_of_not_le today]

end Sys2Proof.Machine

open Sys2Proof Sys2Proof.Machine in
/-- Settles O30: each of the four commands reaches its act on the account. -/
theorem accountMarkCommandsComplete : Obligations.AccountMarkCommandsComplete :=
  fun _ _ _ _ hi held =>
    ⟨fun h active => suspendAccount_completes h hi active, fun h idle => closeAccount_completes h hi held idle,
      fun h => clearLate_completes h hi held, fun h => readAccount_completes h hi held⟩

open Sys2Proof Sys2Proof.Machine in
/-- Settles O31: the index, the FREE and the ACTIVE account are refused in this order, and a SUSPENDED one meets the expiry
test as ACTIVE. -/
theorem resumeAccountMakesActive : Obligations.ResumeAccountMakesActive :=
  ⟨rfl, fun _ _ _ h => ⟨resumeAccount_range h, fun _ hi =>
    ⟨resumeAccount_free h hi, resumeAccount_active h hi, resumeAccount_suspended h hi⟩⟩⟩

open Sys2Proof Sys2Proof.Machine in
/-- Settles O32: an admitted SET STATUS of a non-FREE account is a status change that is not refused
(`changeStatus_held`). -/
theorem setStatusMakesTheStatusChange : Obligations.SetStatusMakesTheStatusChange := by
  intro s o index status time i new h hi hnew held past
  rw [setStatus_completes h hi hnew held past]
  rw [applyStatus, limitsOf_noteLate, noteLate_tc]
  rfl

open Sys2Proof Sys2Proof.Machine in
/-- Settles O29: the card is new, so each command reaches its effect; the record opened is in REST, where the recompute
places nothing, and the record edited keeps standing and expiry through the recompute. -/
theorem openAndEditAccountComplete : Obligations.OpenAndEditAccountComplete := by
  intro s o card profile endorsements expiry p i h hp real classes new
  refine ⟨fun free lowest => ?_, fun held idle index hi => ?_⟩
  · have absent : s.findCard card.toNat = none := lowest_none.mpr fun j => by
      by_cases hj : j = i
      · subst hj; simp [free]
      · simpa using new j hj
    have place : s.freeAccount = some i :=
      lowest_eq_some.mpr ⟨by simpa using free, fun j hj => by simpa using lowest j hj⟩
    intro arrival expired u
    have rest : ((u.setAccount i (openedTested card.toNat p endorsements expiry.toNat arrival expired)).account i).status
        = .rest := by rw [account_setAccount_self]; rfl
    rw [openAccount_completes h hp real classes absent place, expiryTest_opened (s := u) (expired := expired) rfl,
      recompute_rest (by exact rest)]
    rfl
  · intro a w m
    rw [editAccount_completes h hi hp real classes held (cardElsewhere_false.mpr new) idle]
    have record : ∀ t : State, (t = w ∨ t = recompute i w) →
        (t.account i).expiry = expiry.toNat ∧ (t.account i).state = a.state ∧ t.today = s.today := by
      rintro t (rfl | rfl)
      · simp [w, a]
      · simp [w, a]
    obtain ⟨hexpiry, hstate, htoday⟩ := record m (by simp only [m]; split <;> simp)
    rw [show editRecord i card.toNat p endorsements expiry.toNat (seen .editAccount o s) = clearExpired i (expiryTest i m)
      from editRecord_eq .., clearExpired_expiryTest, hexpiry, hstate, htoday]
end

section
/-! PROOFS. Every change keeps tables and settings within their rules, so every step does. -/

namespace Sys2Proof.Machine

variable {late : Prop} {s t : State}

/-! ## The substance table (R87, R90, R91) -/

theorem mem_putSubstance {e x : Substance} {l : List Substance} (h : x ∈ putSubstance e l) : x = e ∨ x ∈ l := by
  induction l with
  | nil => exact .inl (List.mem_singleton.mp h)
  | cons y rest ih =>
    unfold putSubstance at h
    split at h
    · exact List.mem_cons.mp h
    · split at h
      · exact (List.mem_cons.mp h).imp_right (List.mem_cons_of_mem y)
      · rcases List.mem_cons.mp h with rfl | hx
        · exact .inr (List.mem_cons_self ..)
        · exact (ih hx).imp_right (List.mem_cons_of_mem y)

theorem putSubstance_codeOrder {e : Substance} {l : List Substance} (h : l.Pairwise (fun x y => x.code < y.code)) :
    (putSubstance e l).Pairwise (fun x y => x.code < y.code) := by
  induction l with
  | nil => exact List.pairwise_singleton ..
  | cons y rest ih =>
    obtain ⟨first, ordered⟩ := List.pairwise_cons.mp h
    unfold putSubstance
    split
    · next before =>
      exact List.pairwise_cons.mpr ⟨fun z hz => by
        rcases List.mem_cons.mp hz with rfl | hz
        · exact before
        · exact Nat.lt_trans before (first z hz), h⟩
    · split
      · next same => exact List.pairwise_cons.mpr ⟨fun z hz => same ▸ first z hz, ordered⟩
      · next notBefore notSame =>
        exact List.pairwise_cons.mpr ⟨fun z hz => by
          rcases mem_putSubstance hz with rfl | hz
          · omega
          · exact first z hz, ih ordered⟩

theorem length_putSubstance (e : Substance) (l : List Substance) : (putSubstance e l).length ≤ l.length + 1 := by
  induction l with
  | nil => exact Nat.le_refl 1
  | cons y rest ih =>
    unfold putSubstance
    split
    · simp
    · split <;> simp [ih]

/-- A known code's entry is replaced, not added (R90). -/
theorem length_putSubstance_known {e : Substance} {l : List Substance} (h : l.Pairwise (fun x y => x.code < y.code))
    (known : (findSubstance e.code l).isSome = true) : (putSubstance e l).length = l.length := by
  induction l with
  | nil => cases known
  | cons y rest ih =>
    obtain ⟨first, ordered⟩ := List.pairwise_cons.mp h
    obtain ⟨x, hx, hcode⟩ : ∃ x ∈ y :: rest, x.code = e.code := by
      simpa [findSubstance, List.find?_isSome] using known
    unfold putSubstance
    split
    · next before =>
      rcases List.mem_cons.mp hx with rfl | hx
      · omega
      · have := first x hx
        omega
    · split
      · rfl
      · next notSame =>
        have later : x ∈ rest := (List.mem_cons.mp hx).resolve_left fun hy => notSame (hy ▸ hcode.symm)
        have : (findSubstance e.code rest).isSome = true := by
          simpa [findSubstance, List.find?_isSome] using ⟨x, later, hcode⟩
        simp [ih ordered this]

/-! ## The matrix (R93, R94) -/

theorem cellIndex_inj {g h g' h' : Fin 16} : cellIndex g h = cellIndex g' h' ↔ g = g' ∧ h = h' := by
  simp only [cellIndex, Fin.ext_iff, Fin.val_ofNat]
  omega

/-- What the matrix holds after a pair is written: the ruling in both its cells, every other cell as before (R94). -/
theorem cell_setCells (g h i j : Fin 16) (r : Ruling) :
    (s.setCells g h r).cell i j = if (i = g ∧ j = h) ∨ (i = h ∧ j = g) then r else s.cell i j := by
  have place : ∀ k, cellIndex i j = k ↔ (cellIndex i j).val = k.val := fun k => Fin.ext_iff
  have first := place (cellIndex g h)
  have second := place (cellIndex h g)
  rw [cellIndex_inj] at first second
  simp only [State.cell, State.setCells, Fin.getElem_fin, Vector.getElem_set]
  grind

theorem threshold_setThreshold (k j : Fin 15) (n : Nat) :
    (s.setThreshold k n).threshold j = if k = j then n else s.threshold j := by
  simp [State.threshold, State.setThreshold, Vector.getElem_set, Fin.ext_iff]

/-! ## What the predicate reads -/

/-- Profiles with the same records are the same. -/
theorem profile_congr (a : t.hu.profileA = s.hu.profileA) (b : t.hu.profileB = s.hu.profileB) (p : ProfileLetter) :
    t.profile p = s.profile p := by
  cases p
  · exact a
  · exact b

/-- Profiles within their rule, and everything else the predicate reads as before. -/
theorem State.TablesOk.of_profiles (h : s.TablesOk) (profiles : ∀ p, (t.profile p).Ok) (gcu : t.gcu = s.gcu)
    (mr : t.mr = s.mr) (level : t.dl.level = s.dl.level) (period : t.rlc.cyclePeriod = s.rlc.cyclePeriod)
    (silence : t.rlc.silenceLimit = s.rlc.silenceLimit) (offset : t.tc.dayOffset = s.tc.dayOffset) : t.TablesOk where
  profiles := profiles
  metering := mr ▸ h.metering
  codeOrder := gcu ▸ h.codeOrder
  substances := gcu ▸ h.substances
  substanceCount := gcu ▸ h.substanceCount
  symmetric := by simpa only [State.cell, gcu] using h.symmetric
  fixedCells := by simpa only [State.cell, gcu] using h.fixedCells
  thresholds := by simpa only [State.threshold, gcu] using h.thresholds
  logLevel := level ▸ h.logLevel
  cyclePeriod := period ▸ h.cyclePeriod
  silenceLimit := silence ▸ h.silenceLimit
  dayOffset := offset ▸ h.dayOffset

/-- From `s` to `t` everything `State.TablesOk` reads stays; the frame lemmas of Laws/Frames.lean show it field by field. -/
structure SameTables (s t : State) : Prop where
  profileA : t.hu.profileA = s.hu.profileA := by simp
  profileB : t.hu.profileB = s.hu.profileB := by simp
  gcu : t.gcu = s.gcu := by simp
  metering : t.mr = s.mr := by simp
  level : t.dl.level = s.dl.level := by simp
  period : t.rlc.cyclePeriod = s.rlc.cyclePeriod := by simp
  silence : t.rlc.silenceLimit = s.rlc.silenceLimit := by simp
  offset : t.tc.dayOffset = s.tc.dayOffset := by simp

theorem State.TablesOk.same (h : s.TablesOk) (k : SameTables s t) : t.TablesOk :=
  h.of_profiles (fun p => profile_congr k.profileA k.profileB p ▸ h.profiles p) k.gcu k.metering k.level k.period k.silence
    k.offset

/-! ## Settings a link or log update keeps -/

theorem updateNode_rlc (n : Fin 9) (e : NodeEntry) : (updateNode n e s).rlc = (s.setNode n e).rlc := by
  unfold updateNode
  dsimp only
  (repeat' split) <;> simp

theorem heard_rlc (n : Fin 9) : (heard n s).rlc = (s.setNode n (goodFrameEntry (s.frameArrival n) (s.node n))).rlc := by
  unfold heard
  dsimp only
  split <;> rfl

theorem sendBeacon_settings : (sendBeacon s).rlc.cyclePeriod = s.rlc.cyclePeriod ∧
    (sendBeacon s).rlc.silenceLimit = s.rlc.silenceLimit := by
  simp [sendBeacon]

theorem appendEntry_level (e : LogEntry) : (appendEntry e s).dl.level = s.dl.level := by
  unfold appendEntry
  dsimp only
  split <;> rfl

theorem voidLogged_level (arrival : Nat) (f : Fin 16) : (voidLogged arrival f s).dl.level = s.dl.level := by
  unfold voidLogged
  split
  · exact appendEntry_level _
  · rfl

theorem grantRelease_level (f : Fin 16) (arrival : Nat) : (grantRelease f arrival s).dl.level = s.dl.level :=
  appendEntry_level _

/-- A mode request writes the mode or the pending target alone (R188). -/
theorem requestedMode_same {m : Mode} (ht : requestedMode m s = some t) : SameTables s t := by
  unfold requestedMode at ht
  (repeat' split at ht) <;> cases ht <;> exact {}

/-! ## Profiles at a day boundary (R37, R49) -/

theorem LimitProfile.Ok.turned {x : LimitProfile} (h : x.Ok) : x.turned.Ok := by
  unfold LimitProfile.turned
  split
  · exact ⟨h.pendingCopy, h.pendingCopy, fun _ => rfl⟩
  · exact h

theorem profile_transferProfile (p q : ProfileLetter) :
    (transferProfile p s).profile q = if p = q then (s.profile q).turned else s.profile q := by
  unfold transferProfile LimitProfile.turned
  dsimp only
  split
  · next pending =>
    rw [profile_setProfile]
    split
    · next same => rw [← same, if_pos pending]
    · rfl
  · next settled =>
    split
    · next same => rw [← same, if_neg settled]
    · rfl

/-- The day's work turns each profile (R49). -/
theorem profile_dayWork (p : ProfileLetter) : (dayWork s).profile p = (s.profile p).turned := by
  have worked : (dayWork s).profile p = (transferProfile .b (transferProfile .a s)).profile p :=
    profile_congr (by simp [dayWork, overAccounts_keeps (fun s : State => s.hu.profileA) expiryTest (fun i s => by simp)])
      (by simp [dayWork, overAccounts_keeps (fun s : State => s.hu.profileB) expiryTest (fun i s => by simp)]) p
  rw [worked, profile_transferProfile, profile_transferProfile]
  cases p <;> rfl

theorem State.TablesOk.dayWork (h : s.TablesOk) : (dayWork s).TablesOk :=
  h.of_profiles (fun p => profile_dayWork p ▸ (h.profiles p).turned) (by simp) (by simp) (by simp) (by simp) (by simp)
    (by simp)

theorem State.TablesOk.dayCheck (h : s.TablesOk) : (dayCheck s).TablesOk := by
  unfold Machine.dayCheck
  split
  · exact h
  · exact h.dayWork

theorem firingPass_same (m : Nat) : SameTables s (firingPass m (s.setMinuteDue false)) := {}

theorem State.TablesOk.timeJump (h : s.TablesOk) (before : Nat) : (timeJump before s).TablesOk := by
  have fired : (if before < s.minute then firingPass s.minute (s.setMinuteDue false) else s).TablesOk := by
    split
    · exact h.same (firingPass_same _)
    · exact h
  have jumped : ∀ u : State, u.TablesOk → (if u.today ≠ u.tc.treatedDay then Machine.dayWork u
      else if s.minute ≠ before then recomputeAll u else u).TablesOk := fun u hu => by
    split
    · exact hu.dayWork
    · split
      · exact hu.same {}
      · exact hu
  exact jumped _ fired

/-! ## Profiles written (R34 to R36) -/

theorem State.TablesOk.setProfile (h : s.TablesOk) (p : ProfileLetter) {x : LimitProfile} (ok : x.Ok) :
    (s.setProfile p x).TablesOk :=
  h.of_profiles (fun q => by
    rw [profile_setProfile]
    split
    · exact ok
    · exact h.profiles q) (by simp) (by simp) (by simp) (by simp) (by simp) (by simp)

/-! ## Starts (R195, R197) -/

theorem State.TablesOk.startAlarms (h : s.TablesOk) : (startAlarms s).TablesOk := by
  unfold Machine.startAlarms
  split
  · exact h.dayWork
  · exact h.same {}

theorem reset_cell (g h : Fin 16) : State.reset.cell g h = coldRuling g h := by
  have row : (cellIndex g h).val / 16 = g.val := by simp only [cellIndex, Fin.val_ofNat]; omega
  have column : (cellIndex g h).val % 16 = h.val := by simp only [cellIndex, Fin.val_ofNat]; omega
  calc State.reset.cell g h = coldRuling ((cellIndex g h).val / 16) ((cellIndex g h).val % 16) :=
        getElem_tabulate _ _ _ (cellIndex g h).isLt
    _ = coldRuling g h := by rw [row, column]

/-- The cold values are within their rules (R195). -/
theorem reset_tablesOk : State.reset.TablesOk where
  profiles p := by cases p <;> exact ⟨by decide, by decide, fun _ => rfl⟩
  metering := by decide
  codeOrder := List.Pairwise.nil
  substances _ he := nomatch he
  substanceCount := by decide
  symmetric g h := by
    rw [reset_cell, reset_cell, coldRuling, coldRuling]
    grind
  fixedCells g h fixed := by
    rw [reset_cell, coldRuling, if_pos (fixed.imp (congrArg Fin.val) (.imp (congrArg Fin.val) (congrArg Fin.val)))]
  thresholds k := by simp [State.threshold, State.reset]
  logLevel := by decide
  cyclePeriod := by decide
  silenceLimit := by decide
  dayOffset := by decide

theorem coldStart_tablesOk (cause : StartCause) (s : State) : (coldStart cause s).TablesOk := by
  have cold : (commonStart (coldValues s)).TablesOk := reset_tablesOk.same ⟨rfl, rfl, rfl, rfl, rfl, rfl, rfl, rfl⟩
  have noted : (setAttention .clock (commonStart (coldValues s))).TablesOk := cold.same {}
  unfold coldStart
  exact noted.startAlarms.same {}

theorem State.TablesOk.warmStart (h : s.TablesOk) (cause : StartCause) : (warmStart cause s).TablesOk := by
  have common : (commonStart s).TablesOk := h.same ⟨rfl, rfl, rfl, rfl, rfl, rfl, rfl, rfl⟩
  have interrupted : (startInterruption (setAttention .restart (commonStart s))).TablesOk := common.same {}
  unfold Machine.warmStart
  exact interrupted.startAlarms.same {}

/-! ## Goods tables written (R90, R94, R97) -/

theorem State.TablesOk.putSubstance (h : s.TablesOk) {e : Substance} (ok : e.Ok)
    (room : (s.substance e.code).isNone = true → s.gcu.substances.length < 128) :
    (s.setSubstances (putSubstance e s.gcu.substances)).TablesOk :=
  { h with
    codeOrder := putSubstance_codeOrder h.codeOrder
    substances := fun x hx => by
      rcases mem_putSubstance hx with rfl | held
      · exact ok
      · exact h.substances x held
    substanceCount := by
      show (Machine.putSubstance e s.gcu.substances).length ≤ 128
      by_cases known : (s.substance e.code).isSome = true
      · rw [length_putSubstance_known h.codeOrder known]
        exact h.substanceCount
      · have := length_putSubstance e s.gcu.substances
        have := room (by simpa using known)
        omega }

theorem State.TablesOk.dropSubstance (h : s.TablesOk) (code : Nat) :
    (s.setSubstances (dropSubstance code s.gcu.substances)).TablesOk :=
  { h with
    codeOrder := h.codeOrder.filter _
    substances := fun x hx => h.substances x (List.mem_filter.mp hx).1
    substanceCount := Nat.le_trans (List.length_filter_le ..) h.substanceCount }

theorem State.TablesOk.setCells (h : s.TablesOk) {g k : Fin 16} (r : Ruling) (free : ¬(g = k ∨ g = 0 ∨ k = 0)) :
    (s.setCells g k r).TablesOk :=
  { h with
    symmetric := fun i j => by
      rw [cell_setCells, cell_setCells, h.symmetric j i]
      grind
    fixedCells := fun i j fixed => by
      rw [cell_setCells, if_neg (by grind)]
      exact h.fixedCells i j fixed }

theorem State.TablesOk.setThreshold (h : s.TablesOk) (k : Fin 15) {n : Nat} (range : n ≤ 60000) :
    (s.setThreshold k n).TablesOk :=
  { h with
    thresholds := fun j => by
      rw [threshold_setThreshold]
      split
      · exact range
      · exact h.thresholds j }

theorem State.TablesOk.setTc (h : s.TablesOk) {c : TerminalClock} (day : c.dayOffset ≤ 1439) :
    ({ s with tc := c } : State).TablesOk := { h with dayOffset := day }

/-! ## Every change -/

theorem Change.keeps_tables (h : s.TablesOk) (c : Change late s t) : t.TablesOk := by
  cases c with
  -- profiles and clock
  | profileWritten p l range =>
    have written := h.setProfile p (x := ⟨l, l, false⟩) ⟨range, range, fun _ => rfl⟩
    exact written.same {}
  | profilePending p l range => exact h.setProfile p ⟨(h.profiles p).active, range, nofun⟩
  | profileCancelled p => exact h.setProfile p ⟨(h.profiles p).active, (h.profiles p).active, fun _ => rfl⟩
  | timeSet value offset range day => exact State.TablesOk.timeJump (h.setTc day) _
  | timeAdjusted n => exact State.TablesOk.timeJump (s := s.setClock (s.tc.clock + n)) (h.setTc h.dayOffset) _
  | counted | boundaryOwed => exact h.setTc h.dayOffset
  | boundaryTaken => exact (h.same (firingPass_same _)).dayCheck
  | dayChecked => exact h.dayCheck
  -- tables and settings
  | substanceWritten e ok room => exact h.putSubstance ok room
  | substanceCleared code => exact h.dropSubstance code
  | pairWritten g k r free => exact (h.setCells r free).same {}
  | thresholdWritten k n range => exact h.setThreshold k range
  | meteringWritten m range => exact { h with metering := range }
  | levelWritten n range => exact { h with logLevel := range }
  | linkWritten period limit enrolled p l => exact { h with cyclePeriod := p, silenceLimit := l }
  -- starts
  | coldStarted cause => exact coldStart_tablesOk cause s
  | warmStarted cause => exact h.warmStart cause
  -- what keeps them as they are
  | modeRequested m t ht => exact h.same (requestedMode_same ht)
  | voided f arrival =>
    have freed : SameTables s (freeFolder f (voidStops f (voidLogged arrival f s))) := { level := by simp [voidLogged_level] }
    dsimp only
    split
    · exact (h.same freed).same {}
    · exact h.same freed
  | released f arrival => exact h.same { level := grantRelease_level f arrival }
  | goodHeard n => exact h.same { period := by rw [heard_rlc]; rfl, silence := by rw [heard_rlc]; rfl }
  | damagedHeard n | silenceHeard n =>
    exact h.same { period := by rw [updateNode_rlc]; rfl, silence := by rw [updateNode_rlc]; rfl }
  | beaconSent =>
    obtain ⟨period, silence⟩ := sendBeacon_settings (s := s)
    exact h.same { period := period, silence := silence }
  | replyPlaced | flagsWritten | enablesWritten | pinsWritten | rightsWritten | logAcknowledged | replyJoined | placeGivenUp
  | folderPlanned | compartmentStarted | compartmentReported =>
    exact h.same ⟨rfl, rfl, rfl, rfl, rfl, rfl, rfl, rfl⟩
  | _ => exact h.same {}

end Sys2Proof.Machine

open Sys2Proof Sys2Proof.Machine in
/-- Settles O11: a step is a run of changes (`exec_changes`), each of which writes a table or setting within its rule or
leaves it as it is. -/
theorem stepKeepsTheTables : Obligations.StepKeepsTheTables := by
  intro s t h hstep
  rcases step_cases hstep with rfl | ⟨i, rest, hexec⟩
  · exact h
  · have queued : ({ s with pending := rest } : State).TablesOk := h.same ⟨rfl, rfl, rfl, rfl, rfl, rfl, rfl, rfl⟩
    exact (exec_changes hexec).keeps (fun _ _ hs c => c.keeps_tables hs) queued
end

section
/-! PROOFS. What marks a change leaves on the accounts, and what one recompute and a pass of recomputes leave (R18, R55,
R56). -/

namespace Sys2Proof.Machine

/-! ## Flag sets -/

theorem hasMember_withMember {n k : Nat} (set : MemberSet n) (hk : k < n) (j : Nat) :
    hasMember (withMember set k) j = (hasMember set j || decide (j = k)) := by
  simp only [hasMember, withMember, BitVec.getLsbD_or, BitVec.getLsbD_twoPow, hk, decide_true, Bool.true_and, eq_comm]

theorem AttentionFlag.bit_inj {f k : AttentionFlag} : f.bit = k.bit ↔ f = k := by
  cases f <;> cases k <;> decide

/-- A set of alarm flags is known by its flags. -/
theorem alarmSet_ext {x y : MemberSet 5} (h : ∀ k : AlarmFlag, hasMember x k.bit = hasMember y k.bit) : x = y := by
  refine BitVec.eq_of_getLsbD_eq fun i hi => ?_
  match i, hi with
  | 0, _ => exact h .warn
  | 1, _ => exact h .overRun
  | 2, _ => exact h .overWindow
  | 3, _ => exact h .expired
  | 4, _ => exact h .late

theorem hasAlarm_setAlarm (a : Account) (k j : AlarmFlag) :
    (a.setAlarm k).hasAlarm j = true ↔ a.hasAlarm j = true ∨ j = k := by
  have hk : k.bit < 5 := by cases k <;> decide
  simp [Account.hasAlarm, Account.setAlarm, hasMember_withMember _ hk, AlarmFlag.bit_inj]

/-! ## A flag raised (R18) -/

theorem hasAlarm_raised (a : Account) (k j : AlarmFlag) :
    (a.raised k).hasAlarm j = true ↔ a.hasAlarm j = true ∨ j = k := by
  unfold Account.raised
  split
  · next held => exact ⟨.inl, fun h => h.elim id fun e => e ▸ held⟩
  · exact hasAlarm_setAlarm a k j

theorem raised_alarms_ne {a : Account} {k : AlarmFlag} (clear : ¬a.hasAlarm k = true) : (a.raised k).alarms ≠ a.alarms :=
  fun e => clear (show hasMember a.alarms k.bit = true from e ▸ (hasAlarm_raised a k k).mpr (.inr rfl))

theorem raised_unread (a : Account) (k : AlarmFlag) :
    (a.raised k).unread = true ↔ a.unread = true ∨ (a.raised k).alarms ≠ a.alarms := by
  by_cases held : a.hasAlarm k = true
  · simp [Account.raised, held]
  · have new := raised_alarms_ne held
    simp only [new, ne_eq, not_false_eq_true, or_true, iff_true]
    simp [Account.raised, held, Account.setAlarm]

theorem raised_record (a : Account) (k : AlarmFlag) :
    { a.raised k with alarms := a.alarms, unread := a.unread } = a := by
  unfold Account.raised
  split <;> rfl

/-- ALARM is set exactly where the flag is newly set. -/
theorem attention_raiseAlarm (s : State) (i : Fin 64) (k : AlarmFlag) (a : AttentionFlag) :
    hasMember (raiseAlarm i k s).op.flags a.bit = true ↔
      hasMember s.op.flags a.bit = true ∨ (a = .alarm ∧ ¬(s.account i).hasAlarm k = true) := by
  unfold raiseAlarm
  split
  · next held => simp [held]
  · next clear =>
    show hasMember (withMember s.op.flags AttentionFlag.alarm.bit) a.bit = true ↔ _
    rw [hasMember_withMember _ (by decide)]
    simp [AttentionFlag.bit_inj, clear]

/-! ## Marks (R18) -/

/-- From `s` to `t` the flags `new` are raised on the accounts, with unread and ALARM as R18 has them; beside these only the
alarm list may change. -/
structure Marked (new : Fin 64 → AlarmFlag → Prop) (s t : State) : Prop where
  flags : ∀ i k, (t.account i).hasAlarm k = true ↔ (s.account i).hasAlarm k = true ∨ new i k
  unread : ∀ i, (t.account i).unread = true ↔ (s.account i).unread = true ∨ (t.account i).alarms ≠ (s.account i).alarms
  records : ∀ i, { t.account i with alarms := (s.account i).alarms, unread := (s.account i).unread } = s.account i
  attention : ∀ a : AttentionFlag, hasMember t.op.flags a.bit = true ↔
    hasMember s.op.flags a.bit = true ∨ (a = .alarm ∧ ∃ i, t.account i ≠ s.account i)
  kept : { t with
    accounts := s.accounts, hu := { t.hu with alarms := s.hu.alarms }, op := { t.op with flags := s.op.flags } } = s

variable {s t u : State} {m n : Fin 64 → AlarmFlag → Prop} {among others lapsed : Fin 64 → Prop}

theorem Marked.congr (h : Marked m s t) (same : ∀ i k, m i k ↔ n i k) : Marked n s t :=
  { h with flags := fun i k => (h.flags i k).trans (or_congr_right (same i k)) }

/-- The alarm list alone is written: no mark is made. -/
theorem setAlarms_marked (s : State) (l : List AlarmEntry) : Marked (fun _ _ => False) s (s.setAlarms l) where
  flags _ _ := by rw [or_false]; rfl
  unread _ := by simp
  records _ := rfl
  attention _ := by simp
  kept := rfl

theorem raiseAlarm_marked (s : State) (i : Fin 64) (k : AlarmFlag) :
    Marked (fun j f => j = i ∧ f = k) s (raiseAlarm i k s) where
  flags j f := by
    rw [account_raiseAlarm]
    split
    · next same => subst same; simp [hasAlarm_raised]
    · next other => simp [Ne.symm other]
  unread j := by
    rw [account_raiseAlarm]
    split
    · next same => subst same; exact raised_unread _ k
    · simp
  records j := by
    rw [account_raiseAlarm]
    split
    · next same => subst same; exact raised_record _ k
    · rfl
  attention a := by
    have changed : (∃ j, (raiseAlarm i k s).account j ≠ s.account j) ↔ ¬(s.account i).hasAlarm k = true := by
      constructor
      · rintro ⟨j, hj⟩ held
        exact hj (by rw [raiseAlarm, if_pos held])
      · intro clear
        exact ⟨i, fun e => raised_alarms_ne clear (by rw [account_raiseAlarm, if_pos rfl] at e; rw [e])⟩
    rw [attention_raiseAlarm, changed]
  kept := by
    unfold raiseAlarm
    split <;> rfl

/-- A record whose flags stay as they were stays whole. -/
theorem Marked.account_of_alarms (h : Marked m s t) {i : Fin 64} (alarms : (t.account i).alarms = (s.account i).alarms) :
    t.account i = s.account i := by
  have unread : (t.account i).unread = (s.account i).unread := Bool.eq_iff_iff.mpr (by simp [h.unread i, alarms])
  rw [← h.records i, ← alarms, ← unread]

/-- Flags only grow: where two runs of marks end with the flags of the start, both left them. -/
theorem Marked.alarms_trans (h : Marked m s t) (k : Marked n t u) (i : Fin 64) :
    (u.account i).alarms = (s.account i).alarms ↔
      (t.account i).alarms = (s.account i).alarms ∧ (u.account i).alarms = (t.account i).alarms := by
  refine ⟨fun e => ?_, fun ⟨e, e'⟩ => e'.trans e⟩
  have first : (t.account i).alarms = (s.account i).alarms := alarmSet_ext fun f => Bool.eq_iff_iff.mpr
    ⟨fun hf => e ▸ (k.flags i f).mpr (.inl hf), fun hf => (h.flags i f).mpr (.inl hf)⟩
  exact ⟨first, e.trans first.symm⟩

theorem Marked.account_trans (h : Marked m s t) (k : Marked n t u) (i : Fin 64) :
    u.account i = s.account i ↔ t.account i = s.account i ∧ u.account i = t.account i := by
  refine ⟨fun e => ?_, fun ⟨e, e'⟩ => e'.trans e⟩
  obtain ⟨first, second⟩ := (h.alarms_trans k i).mp (congrArg Account.alarms e)
  exact ⟨h.account_of_alarms first, k.account_of_alarms second⟩

theorem Marked.trans (h : Marked m s t) (k : Marked n t u) : Marked (fun i f => m i f ∨ n i f) s u where
  flags i f := by rw [k.flags, h.flags, or_assoc]
  unread i := by
    have grown : (u.account i).alarms ≠ (s.account i).alarms ↔
        (t.account i).alarms ≠ (s.account i).alarms ∨ (u.account i).alarms ≠ (t.account i).alarms := by
      rw [ne_eq, h.alarms_trans k i, Classical.not_and_iff_not_or_not]
    rw [k.unread, h.unread, grown, or_assoc]
  records i := by rw [← h.records i, ← k.records i]
  attention a := by
    have changed : (∃ i, u.account i ≠ s.account i) ↔
        (∃ i, t.account i ≠ s.account i) ∨ ∃ i, u.account i ≠ t.account i := by
      rw [← exists_or]
      exact exists_congr fun i => by rw [ne_eq, h.account_trans k i, Classical.not_and_iff_not_or_not]
    rw [k.attention, h.attention, changed, or_assoc, ← and_or_left]
  kept := by rw [← h.kept, ← k.kept]

/-! ## What the figures read -/

/-- The figures do not read the marks of a record (R22). -/
theorem figuresOf_marks (offset : Nat) (l : Limits) (asked : Nat) (a : Account) (alarms : MemberSet 5) (unread : Bool) :
    figuresOf offset l asked { a with alarms := alarms, unread := unread } = figuresOf offset l asked a := by
  simp only [figuresOf, viewAt_eq]
  rfl

theorem Marked.tc (h : Marked m s t) : t.tc = s.tc := by simpa using congrArg State.tc h.kept

theorem Marked.minute (h : Marked m s t) : t.minute = s.minute := by rw [State.minute, h.tc, State.minute]

theorem Marked.profile (h : Marked m s t) (p : ProfileLetter) : t.profile p = s.profile p :=
  profile_congr (by simpa using congrArg (fun x : State => x.hu.profileA) h.kept)
    (by simpa using congrArg (fun x : State => x.hu.profileB) h.kept) p

theorem Marked.account_eq (h : Marked m s t) (i : Fin 64) :
    t.account i = { s.account i with alarms := (t.account i).alarms, unread := (t.account i).unread } := by
  rw [← h.records i]

theorem Marked.figures (h : Marked m s t) (i : Fin 64) (asked : Nat) : t.figures i asked = s.figures i asked := by
  rw [State.figures, h.account_eq i, figuresOf_marks, h.tc, State.figures]
  simp only [State.limitsOf, h.profile]

theorem Marked.placedEntries (h : Marked m s t) (asked : Nat) (i : Fin 64) :
    placedEntries asked i t = placedEntries asked i s := by
  unfold Machine.placedEntries
  dsimp only
  rw [h.figures, h.profile, h.account_eq i]

theorem Marked.limitReached (h : Marked m s t) (asked : Nat) (i : Fin 64) (k : AlarmFlag) :
    limitReached asked i t k ↔ limitReached asked i s k := by
  unfold Machine.limitReached
  dsimp only
  rw [h.figures, h.profile, h.account_eq i]

/-! ## One recompute (R55) -/

/-- The flag a recompute of account `i` at minute `m` raises, if any. -/
def reachedFlag (m : Nat) (i : Fin 64) (s : State) : Option AlarmFlag :=
  let a := s.account i
  match a.status, a.shiftStart with
  | .drive, _ => if (s.figures i m).runAllowance = 0 then some .overRun else none
  | .duty, some start => if start + (s.profile a.profile).active.wMax ≤ m then some .overWindow else none
  | _, _ => none

theorem reachedFlag_eq_some {m : Nat} {i : Fin 64} {k : AlarmFlag} :
    reachedFlag m i s = some k ↔ limitReached m i s k := by
  unfold reachedFlag limitReached
  dsimp only
  cases (s.account i).status with
  | rest => simp
  | duty => cases (s.account i).shiftStart <;> simp [and_comm, eq_comm (a := k)]
  | drive => simp [and_comm, eq_comm (a := k)]

theorem placedEntries_cases (m : Nat) (i : Fin 64) (s : State) :
    placedEntries m i s = [] ∨ ∃ e : AlarmEntry, e.account = i ∧ placedEntries m i s = [e] := by
  unfold placedEntries
  dsimp only
  (repeat' split) <;> simp

/-- What a recompute places, as two acts: the entry is listed, and the flag of a limit already reached is raised. -/
theorem placeAlarm_eq {m : Nat} {i : Fin 64} (held : (s.account i).state ≠ .free) :
    placeAlarm m i s =
      (let listed := s.setAlarms ((placedEntries m i s).foldr insertAlarm s.hu.alarms)
      (reachedFlag m i s).elim listed (raiseAlarm i · listed)) := by
  unfold placeAlarm reachedFlag placedEntries
  dsimp only [State.limitsOf]
  rw [if_neg held]
  cases (s.account i).status with
  | rest => rfl
  | duty =>
    cases (s.account i).shiftStart with
    | none => rfl
    | some start =>
      dsimp only
      by_cases ahead : m < start + (s.profile (s.account i).profile).active.wMax
      · rw [if_pos ahead, if_pos ahead, if_neg (by omega)]; rfl
      · rw [if_neg ahead, if_neg ahead, if_pos (by omega)]; rfl
  | drive =>
    dsimp only
    by_cases warns : (s.profile (s.account i).profile).active.warnLead < (s.figures i m).runAllowance
    · rw [if_pos warns, if_pos warns, if_neg (by omega)]; rfl
    · by_cases room : 0 < (s.figures i m).runAllowance
      · rw [if_neg warns, if_neg warns, if_pos room, if_pos room, if_neg (by omega)]; rfl
      · rw [if_neg warns, if_neg warns, if_neg room, if_neg room, if_pos (by omega)]; rfl

/-- A recompute first takes the account's old entry off the list, which none of its readings sees. -/
theorem recompute_eq {i : Fin 64} (held : (s.account i).state ≠ .free) :
    recompute i s =
      (let listed := s.setAlarms ((placedEntries s.minute i s).foldr insertAlarm (removeAlarm i s.hu.alarms))
      (reachedFlag s.minute i s).elim listed (raiseAlarm i · listed)) :=
  placeAlarm_eq (s := s.removeAlarm i) held

theorem filter_insertAlarm_self {e : AlarmEntry} {l : List AlarmEntry} (gone : l.filter (fun x => x.account == e.account) = []) :
    (insertAlarm e l).filter (fun x => x.account == e.account) = [e] := by
  have := (insertAlarm_perm e l).filter (fun x => x.account == e.account)
  rw [List.filter_cons_of_pos (by simp), gone] at this
  exact List.perm_singleton.mp this

theorem filter_insertAlarm_ne {e : AlarmEntry} {l : List AlarmEntry} {j : Fin 64} (other : e.account ≠ j) :
    (insertAlarm e l).filter (fun x => x.account == j) = l.filter (fun x => x.account == j) := by
  induction l with
  | nil => simp [insertAlarm, other]
  | cons x rest ih =>
    unfold insertAlarm
    split
    · rw [List.filter_cons_of_neg (by simpa using other)]
    · rw [List.filter_cons, List.filter_cons, ih]

theorem filter_removeAlarm (i j : Fin 64) (l : List AlarmEntry) :
    (removeAlarm i l).filter (fun x => x.account == j) = if j = i then [] else l.filter (fun x => x.account == j) := by
  unfold removeAlarm
  rw [List.filter_filter]
  split
  · next same => subst same; simp
  · next other =>
    refine List.filter_congr fun x _ => ?_
    by_cases h : x.account = j <;> simp [h, other]

theorem recompute_alarms {i : Fin 64} (held : (s.account i).state ≠ .free) :
    (recompute i s).hu.alarms = (placedEntries s.minute i s).foldr insertAlarm (removeAlarm i s.hu.alarms) := by
  rw [recompute_eq held]
  cases reachedFlag s.minute i s <;> simp

theorem recompute_marked {i : Fin 64} (held : (s.account i).state ≠ .free) :
    Marked (fun j k => j = i ∧ limitReached s.minute i s k) s (recompute i s) := by
  simp only [recompute_eq held, ← reachedFlag_eq_some]
  have listed := setAlarms_marked s ((placedEntries s.minute i s).foldr insertAlarm (removeAlarm i s.hu.alarms))
  cases reachedFlag s.minute i s with
  | none => exact listed.congr (by simp)
  | some f => exact (listed.trans (raiseAlarm_marked _ i f)).congr (by simp [eq_comm])

/-! ## Passes of recomputes (R56) -/

theorem Recomputed.of_marked
    (placed : ∀ i, among i → t.hu.alarms.filter (fun e => e.account == i) = placedEntries t.minute i t)
    (left : ∀ i, ¬among i →
      t.hu.alarms.filter (fun e => e.account == i) = s.hu.alarms.filter (fun e => e.account == i))
    (marked : Marked (fun i k => (among i ∧ limitReached t.minute i t k) ∨ (k = .expired ∧ lapsed i)) s t) :
    Recomputed among lapsed s t :=
  ⟨placed, left, marked.flags, marked.unread, marked.records, marked.attention, marked.kept⟩

theorem Recomputed.marked (h : Recomputed among lapsed s t) :
    Marked (fun i k => (among i ∧ limitReached t.minute i t k) ∨ (k = .expired ∧ lapsed i)) s t :=
  ⟨h.flags, h.unread, h.records, h.attention, h.kept⟩

theorem Recomputed.congr (h : Recomputed among lapsed s t) (same : ∀ i, among i ↔ others i) : Recomputed others lapsed s t :=
  (funext fun i => propext (same i) : among = others) ▸ h

theorem Recomputed.refl (s : State) : Recomputed (fun _ => False) (fun _ => False) s s :=
  .of_marked (fun _ => False.elim) (fun _ _ => rfl) ((setAlarms_marked s s.hu.alarms).congr (by simp))

/-- Two passes one after the other are one pass: the second does not change what the first has read. -/
theorem Recomputed.trans {lapsed' : Fin 64 → Prop} (h : Recomputed among lapsed s t) (k : Recomputed others lapsed' t u) :
    Recomputed (fun i => among i ∨ others i) (fun i => lapsed i ∨ lapsed' i) s u := by
  have minute := k.marked.minute
  refine .of_marked (fun i hi => ?_) (fun i hi => ?_) ((h.marked.trans k.marked).congr fun i f => ?_)
  · by_cases again : others i
    · exact k.placed i again
    · rw [k.others i again, h.placed i (hi.resolve_right again), minute, k.marked.placedEntries]
  · obtain ⟨first, second⟩ := not_or.mp hi
    rw [k.others i second, h.others i first]
  · rw [minute, k.marked.limitReached, or_and_right, and_or_left, or_or_or_comm]

theorem recompute_recomputed {i : Fin 64} (held : (s.account i).state ≠ .free) :
    Recomputed (fun j => j = i) (fun _ => False) s (recompute i s) := by
  have marked := recompute_marked held
  refine .of_marked (fun j same => ?_) (fun j other => ?_) (marked.congr fun j k => ?_)
  · subst same
    rw [marked.minute, marked.placedEntries, recompute_alarms held]
    rcases placedEntries_cases s.minute j s with none | ⟨e, rfl, one⟩
    · rw [none]; simp [filter_removeAlarm]
    · rw [one]; exact filter_insertAlarm_self (by simp [filter_removeAlarm])
  · rw [recompute_alarms held]
    rcases placedEntries_cases s.minute i s with none | ⟨e, he, one⟩
    · rw [none]; simp [filter_removeAlarm, other]
    · rw [one, List.foldr_cons, filter_insertAlarm_ne (by rw [he]; exact Ne.symm other)]
      simp [filter_removeAlarm, other]
  · rw [marked.minute, marked.limitReached]
    constructor
    · rintro ⟨rfl, reached⟩; exact .inl ⟨rfl, reached⟩
    · rintro (⟨rfl, reached⟩ | ⟨-, none⟩)
      · exact ⟨rfl, reached⟩
      · exact none.elim

/-- A pass over a list of accounts that recomputes those of a standing a recompute does not touch. -/
theorem foldl_recomputed {P : Account → Prop} [DecidablePred P] (held : ∀ a, P a → a.state ≠ .free)
    (marks : ∀ (a : Account) (alarms : MemberSet 5) (unread : Bool), P { a with alarms := alarms, unread := unread } ↔ P a)
    (l : List (Fin 64)) : ∀ s : State, Recomputed (fun i => i ∈ l ∧ P (s.account i)) (fun _ => False) s
      (l.foldl (fun s i => if P (s.account i) then recompute i s else s) s) := by
  induction l with
  | nil => exact fun s => (Recomputed.refl s).congr (by simp)
  | cons i rest ih =>
    intro s
    have first : Recomputed (fun j => j = i ∧ P (s.account j)) (fun _ => False) s
        (if P (s.account i) then recompute i s else s) := by
      split
      · next yes => exact (recompute_recomputed (held _ yes)).congr fun j => ⟨fun e => ⟨e, e ▸ yes⟩, And.left⟩
      · next no => exact (Recomputed.refl s).congr fun j => ⟨False.elim, fun ⟨e, yes⟩ => no (e ▸ yes)⟩
    have kept : ∀ j, P ((if P (s.account i) then recompute i s else s).account j) ↔ P (s.account j) := fun j => by
      rw [first.marked.account_eq j, marks]
    have both := first.trans (ih _)
    simp only [kept, ← or_and_right, ← List.mem_cons, or_self] at both
    exact both

theorem recomputeProfile_recomputed (p : ProfileLetter) (s : State) :
    Recomputed (fun i => (s.account i).state ≠ .free ∧ (s.account i).profile = p) (fun _ => False) s
      (recomputeProfile p s) :=
  (foldl_recomputed (P := fun a => a.state ≠ .free ∧ a.profile = p) (fun _ h => h.1) (fun _ _ _ => Iff.rfl)
    (List.finRange 64) s).congr (by simp)

end Sys2Proof.Machine
end

section
/-! PROOFS. SET PROFILE and CANCEL PENDING PROFILE at their owner (R33 to R36). -/

namespace Sys2Proof.Machine

variable {s : State} {o : OfficeFrame} {letter : Byte} {p : ProfileLetter}

theorem Limits.inRange_iff {l : Limits} : l.inRange = true ↔
    (60 ≤ l.dMax ∧ l.dMax ≤ 1440) ∧ (60 ≤ l.wMax ∧ l.wMax ≤ 1440) ∧ (1 ≤ l.brkMin ∧ l.brkMin ≤ 120) ∧
      (60 ≤ l.rMin ∧ l.rMin ≤ 1440) ∧ (60 ≤ l.cMax ∧ l.cMax ≤ 11520) ∧ l.warnLead ≤ 120 ∧ l.dMax ≤ l.wMax ∧
      (30 ≤ l.bMax ∧ l.bMax ≤ l.dMax) := by
  simp [Limits.inRange, within, and_assoc]

/-- A SET PROFILE in range, outside LISTEN, is written (R33). -/
theorem setProfile_completes {dMax wMax bMax brkMin rMin cMax warnLead : BitVec 16} {l : Limits}
    (items : l = ⟨dMax.toNat, wMax.toNat, bMax.toNat, brkMin.toNat, rMin.toNat, cMax.toNat, warnLead.toNat⟩)
    (h : s.admits o .tableEdit) (hp : ProfileLetter.ofCode letter = some p) (range : l.inRange = true)
    (taken : s.mc.mode ≠ .listen) :
    exec (.setProfile o letter dMax wMax bMax brkMin rMin cMax warnLead) s
      = answersOk .setProfile o [] (writeProfile p l (seen .setProfile o s)) := by
  subst items
  refine officeCommand_ok h ?_
  simp [setProfileAnswer, taken, hp, range]

theorem writeProfile_config {l : Limits} (config : s.mc.mode = .config) :
    writeProfile p l s = recomputeProfile p (s.setProfile p ⟨l, l, false⟩) := if_pos config

theorem writeProfile_run {l : Limits} (run : s.mc.mode = .run) :
    writeProfile p l s = s.setProfile p ⟨(s.profile p).active, l, true⟩ := if_neg (by simp [run])

/-- A CANCEL PENDING PROFILE of a pending edit, outside LISTEN, is taken (R36). -/
theorem cancelPendingProfile_completes (h : s.admits o .tableEdit) (hp : ProfileLetter.ofCode letter = some p)
    (taken : s.mc.mode ≠ .listen) (pending : (s.profile p).pendingValid = true) :
    exec (.cancelPendingProfile o letter) s = answersOk .cancelPendingProfile o []
      ((seen .cancelPendingProfile o s).setProfile p ⟨(s.profile p).active, (s.profile p).active, false⟩) := by
  refine officeCommand_ok h ?_
  simp [cancelPendingProfileAnswer, taken, hp, pending]

end Sys2Proof.Machine

open Sys2Proof Sys2Proof.Machine in
/-- Settles O37: an admitted edit in range reaches its writing, and in CONFIG the pass that follows recomputes the accounts
of the profile (`recomputeProfile_recomputed`). -/
theorem profileEditsComplete : Obligations.ProfileEditsComplete := by
  intro s o letter p h hp
  refine ⟨?_, cancelPendingProfile_completes h hp⟩
  intro dMax wMax bMax brkMin rMin cMax warnLead l hd hw hbrk hr hc hlead hdw hb u
  have range : l.inRange = true := Limits.inRange_iff.mpr ⟨hd, hw, hbrk, hr, hc, hlead, hdw, hb⟩
  have written : s.mc.mode ≠ .listen → exec (.setProfile o letter dMax wMax bMax brkMin rMin cMax warnLead) s =
      answersOk .setProfile o [] (writeProfile p l u) := setProfile_completes rfl h hp range
  refine ⟨fun config => ⟨writeProfile p l u, written (by simp [config]), ?_⟩, fun run => ?_⟩
  · rw [writeProfile_config (by simpa [u] using config)]
    exact (recomputeProfile_recomputed p _).congr (by simp [u])
  · rw [written (by simp [run]), writeProfile_run (by simpa [u] using run), profile_seen]
end


section
/-! PROOFS. The plan check, step by step: when each finds no failure (R99 to R104). -/

namespace Sys2Proof.Machine

variable {s : State} {x : Folder} {cs : List Compartment}

/-! ## Searches -/

theorem firstFailing_eq_none {α : Type} {p : Nat → α → Bool} {xs : List α} :
    firstFailing p xs = none ↔ ∀ k a, xs[k]? = some a → p k a = true := by
  simp [firstFailing, List.findIdx?_eq_none_iff, List.mem_zipIdx_iff_getElem?, forall_comm (α := α)]

theorem firstFailing_const_eq_none {α : Type} {p : α → Bool} {xs : List α} :
    firstFailing (fun _ => p) xs = none ↔ ∀ a ∈ xs, p a = true := by
  simp only [firstFailing_eq_none, List.mem_iff_getElem?]
  exact ⟨fun h a ⟨k, hk⟩ => h k a hk, fun h k a hk => h a ⟨k, hk⟩⟩

/-- No line clashes with an earlier one where no two lines clash (R101). -/
theorem laterLine_eq_none {clash : PapersLine → PapersLine → Bool} {lines : List PapersLine} :
    laterLine clash lines = none ↔ lines.Pairwise (fun p q => clash p q = false) := by
  simp only [laterLine, firstFailing_eq_none, List.all_eq_true, Bool.not_eq_true', List.mem_take_iff_getElem,
    List.pairwise_iff_getElem, List.getElem?_eq_some_iff]
  constructor
  · intro h i j hi hj hij
    exact h j _ ⟨hj, rfl⟩ _ ⟨i, by omega, rfl⟩
  · rintro h j _ ⟨hj, rfl⟩ _ ⟨i, hi, rfl⟩
    exact h i j (by omega) hj (by omega)

/-! ## Declared quantities (R100) -/

theorem declaredOk_empty {c : Compartment} (empty : c.substance = none) :
    declaredOk s c = true ↔ c.declared = 0 := by
  simp [declaredOk, empty]

theorem declaredOk_product {c : Compartment} {code : Nat} {e : Substance} (holds : c.substance = some code)
    (known : s.substance code = some e) :
    declaredOk s c = true ↔ 1 ≤ c.declared ∧ c.declared ≤ c.capacity * e.fill / 1000 := by
  simp [declaredOk, State.fillLimit, State.product, holds, known, within]

/-- Steps 1 and 2 together ask that every declared quantity fit. -/
theorem checkDeclared_eq_none :
    checkKnown s x.compartments = none ∧ checkFill s x.compartments = none ↔ DeclaredFits s x := by
  rw [checkKnown, checkFill, Option.map_eq_none_iff, Option.map_eq_none_iff, firstFailing_const_eq_none,
    firstFailing_const_eq_none, DeclaredFits]
  refine forall_and.symm.trans (forall_congr' fun c => imp_and.symm.trans (imp_congr_right fun _ => ?_))
  cases holds : c.substance with
  | none => simp [declaredOk_empty holds]
  | some code =>
    cases known : s.substance code with
    | none => simp [State.product, holds, known]
    | some e => simp [State.product, holds, known, declaredOk_product holds known]

/-! ## The papers (R101) -/

/-- A set of numbers below `n` has no other member. -/
theorem lt_of_hasMember {n k : Nat} {set : MemberSet n} (h : hasMember set k = true) : k < n :=
  BitVec.lt_of_getLsbD h

theorem lineFits_iff {line : PapersLine} : lineFits cs line = true ↔
    ∀ k, hasMember line.compartments k = true → ∃ c, cs[k]? = some c ∧ c.substance = some line.code := by
  simp only [lineFits, List.all_eq_true, List.mem_range]
  constructor
  · intro h k named
    have fits := h k (lt_of_hasMember named)
    cases place : cs[k]? <;> simp_all
  · intro h k _
    by_cases named : hasMember line.compartments k = true
    · obtain ⟨c, place, holds⟩ := h k named
      simp [place, holds]
    · simp [named]

/-- Step 3 finds no failure where none of its five parts does. -/
theorem papersFailure_eq_none {lines : List PapersLine} : papersFailure s cs lines = none ↔
    firstFailing (fun _ line => (s.substance line.code).isSome) lines = none ∧
    laterLine (fun p q => p.code == q.code) lines = none ∧
    laterLine (fun p q => p.compartments &&& q.compartments != 0) lines = none ∧
    firstFailing (fun _ line => lineFits cs line) lines = none ∧
    firstFailing (fun k c => c.substance.isNone || lines.any (fun line => hasMember line.compartments k)) cs = none := by
  unfold papersFailure
  (repeat' split) <;> simp_all only [reduceCtorEq, false_and, and_false, true_and, Option.map_eq_none_iff]

/-- The last part of step 3: every non-EMPTY compartment is named by a line. -/
theorem uncovered_eq_none {lines : List PapersLine} :
    firstFailing (fun k c => c.substance.isNone || lines.any (fun line => hasMember line.compartments k)) cs = none ↔
      ∀ k c, cs[k]? = some c → c.substance.isSome → ∃ p ∈ lines, hasMember p.compartments k = true := by
  rw [firstFailing_eq_none]
  refine forall₃_congr fun k c _ => ?_
  cases c.substance <;> simp

theorem checkPapers_eq_none : checkPapers s x = none ↔ PapersFit s x := by
  rw [checkPapers, Option.map_eq_none_iff, papersFailure_eq_none, firstFailing_const_eq_none, laterLine_eq_none,
    laterLine_eq_none, firstFailing_const_eq_none, uncovered_eq_none]
  simp only [beq_eq_false_iff_ne, bne_eq_false_iff_eq, lineFits_iff]
  exact ⟨fun ⟨known, distinct, disjoint, holds, covers⟩ => ⟨known, distinct, disjoint, holds, covers⟩,
    fun ⟨known, distinct, disjoint, holds, covers⟩ => ⟨known, distinct, disjoint, holds, covers⟩⟩

/-! ## Pairs of compartments (R102) -/

theorem emptyBetween_iff {i j : Nat} : emptyBetween cs i j = true ↔
    ∃ (k : Nat) (e : Compartment), i < k ∧ k < j ∧ cs[k]? = some e ∧ e.substance = none := by
  simp only [emptyBetween, List.any_eq_true, List.mem_range, Bool.and_eq_true, decide_eq_true_eq]
  refine exists_congr fun k => ?_
  cases place : cs[k]? <;> simp [and_left_comm]

theorem pairPasses_iff {i j : Nat} : pairPasses s cs i j = true ↔
    ∀ (c d : Compartment) (g h : Substance), cs[i]? = some c → cs[j]? = some d → s.product c = some g →
      s.product d = some h → s.cell g.group h.group ≠ .never ∧ (s.cell g.group h.group = .apart →
        ∃ (k : Nat) (e : Compartment), i < k ∧ k < j ∧ cs[k]? = some e ∧ e.substance = none) := by
  rw [← emptyBetween_iff]
  unfold pairPasses
  split
  · next g h hg hh =>
    obtain ⟨c, hc, hg⟩ := Option.bind_eq_some_iff.mp hg
    obtain ⟨d, hd, hh⟩ := Option.bind_eq_some_iff.mp hh
    calc _ ↔ s.cell g.group h.group ≠ .never ∧ (s.cell g.group h.group = .apart → emptyBetween cs i j = true) := by
          cases s.cell g.group h.group <;> simp
      _ ↔ _ := ⟨fun passes c' d' g' h' hc' hd' hg' hh' => by simp_all, fun passes => passes c d g h hc hd hg hh⟩
  · next unheld =>
    simp only [true_iff]
    intro c d g h hc hd hg hh
    exact absurd (show cs[j]?.bind s.product = some h by simp [hd, hh]) (unheld g h (by simp [hc, hg]))

theorem checkPairs_eq_none : checkPairs s x.compartments = none ↔ PairsFit s x := by
  have passes : checkPairs s x.compartments = none ↔
      ∀ i j, i < j → j < x.compartments.length → pairPasses s x.compartments i j = true := by
    simp only [checkPairs, Option.map_eq_none_iff, List.find?_eq_none, List.mem_flatMap, List.mem_map, List.mem_range,
      Bool.not_eq_true', Bool.not_eq_false]
    exact ⟨fun h i j hij hj => h (j, i) ⟨j, hj, i, hij, rfl⟩, fun h _ ⟨j, hj, i, hij, e⟩ => e ▸ h i j hij hj⟩
  simp only [passes, pairPasses_iff, PairsFit]
  constructor
  · intro h i j c d g k hij hc hd
    exact h i j hij (List.getElem?_eq_some_iff.mp hd).1 c d g k hc hd
  · intro h i j hij _ c d g k hc hd
    exact h i j c d g k hij hc hd

/-! ## The drivers (R103, R104) -/

theorem product_eq_some {c : Compartment} {e : Substance} :
    s.product c = some e ↔ ∃ code, c.substance = some code ∧ s.substance code = some e := Option.bind_eq_some_iff

/-- The classes a plan asks for are the classes of its codes that are not 0 (R103). -/
theorem classAsked_iff {p : Nat → Prop} :
    (∃ code ∈ codesWhere (fun _ => true) cs, s.classOf code ≠ 0 ∧ p (s.classOf code)) ↔
      ∃ c ∈ cs, ∃ e, s.product c = some e ∧ e.cls.val ≠ 0 ∧ p e.cls.val := by
  simp only [codesWhere, List.mem_filterMap, List.mem_filter, product_eq_some, State.classOf]
  constructor
  · rintro ⟨code, ⟨c, ⟨hc, -⟩, holds⟩, asked, hp⟩
    cases known : s.substance code with
    | none => simp [known] at asked
    | some e =>
      simp only [known, Option.map_some, Option.getD_some] at asked hp
      exact ⟨c, hc, e, ⟨code, holds, known⟩, asked, hp⟩
  · rintro ⟨c, hc, e, ⟨code, holds, known⟩, asked, hp⟩
    exact ⟨code, ⟨c, ⟨hc, trivial⟩, holds⟩, by simpa [known] using asked, by simpa [known] using hp⟩

theorem endorsementTest_endorsement {a : Account} {day : Nat} :
    (endorsementTest s a (codesWhere (fun _ => true) cs) day).endorsement = true ↔
      ∃ c ∈ cs, ∃ e, s.product c = some e ∧ e.cls.val ≠ 0 ∧ hasMember a.endorsements e.cls.val = false := by
  rw [← classAsked_iff (p := fun k => hasMember a.endorsements k = false)]
  simp [endorsementTest]

theorem endorsementTest_expired {a : Account} {day : Nat} :
    (endorsementTest s a (codesWhere (fun _ => true) cs) day).expired = true ↔
      (∃ c ∈ cs, ∃ e, s.product c = some e ∧ e.cls.val ≠ 0) ∧ a.expiry < day := by
  have asked := classAsked_iff (s := s) (cs := cs) (p := fun _ => True)
  simp only [and_true] at asked
  rw [← asked]
  simp [endorsementTest]

theorem checkDriver_eq_none {day : Nat} {i : Fin 64} :
    checkDriver s x.compartments day i = none ↔ DriverFits s x day i := by
  have sound : checkDriver s x.compartments day i = none ↔
      ¬(endorsementTest s (s.account i) (codesWhere (fun _ => true) x.compartments) day).endorsement = true ∧
      ¬(endorsementTest s (s.account i) (codesWhere (fun _ => true) x.compartments) day).expired = true := by
    unfold checkDriver
    dsimp only
    (repeat' split) <;> simp_all
  rw [sound, endorsementTest_endorsement, endorsementTest_expired, DriverFits]
  constructor
  · rintro ⟨endorsed, current⟩ c hc e he asked
    exact ⟨(Bool.not_eq_false _).mp fun lacks => endorsed ⟨c, hc, e, he, asked, lacks⟩,
      Nat.le_of_not_lt fun lapsed => current ⟨⟨c, hc, e, he, asked⟩, lapsed⟩⟩
  · intro fits
    constructor
    · rintro ⟨c, hc, e, he, asked, lacks⟩
      exact absurd (fits c hc e he asked).1 (by rw [lacks]; decide)
    · rintro ⟨⟨c, hc, e, he, asked⟩, lapsed⟩
      exact Nat.not_lt.mpr (fits c hc e he asked).2 lapsed

/-! ## The five steps -/

theorem planCheck_eq_none {day : Nat} : planCheck s x day = none ↔
    (checkKnown s x.compartments = none ∧ checkFill s x.compartments = none) ∧ checkPapers s x = none ∧
      checkPairs s x.compartments = none ∧ ∀ i ∈ x.drivers, checkDriver s x.compartments day i = none := by
  simp [planCheck, Folder.drivers, and_assoc, Option.bind_eq_none_iff]

end Sys2Proof.Machine

open Sys2Proof Sys2Proof.Machine in
/-- Settles O20: each step of the check finds no failure exactly where its part of the plan fits. -/
theorem planCheckPassesExactlyTheFitPlans : Obligations.PlanCheckPassesExactlyTheFitPlans := by
  intro s x day
  simp only [planCheck_eq_none, checkDeclared_eq_none, checkPapers_eq_none, checkPairs_eq_none, checkDriver_eq_none]
  exact ⟨fun ⟨declared, papers, pairs, drivers⟩ => ⟨declared, papers, pairs, drivers⟩,
    fun ⟨declared, papers, pairs, drivers⟩ => ⟨declared, papers, pairs, drivers⟩⟩
end

section
/-! PROOFS. Sets built member by member over a table (R94, R98). -/

namespace Sys2Proof.Machine

/-- A set that takes the place of each element satisfying a test. -/
theorem hasMember_foldl_withMember {α : Type} {n : Nat} {p : α → Prop} [DecidablePred p] {place : α → Nat}
    (inside : ∀ a, place a < n) (l : List α) (j : Nat) : ∀ set : MemberSet n,
    hasMember (l.foldl (fun set a => if p a then withMember set (place a) else set) set) j = true ↔
      hasMember set j = true ∨ ∃ a ∈ l, p a ∧ j = place a := by
  induction l with
  | nil => simp
  | cons a rest ih =>
    intro set
    rw [List.foldl_cons, ih]
    by_cases taken : p a
    · simp [taken, hasMember_withMember _ (inside a), or_assoc]
    · simp [taken]

theorem hasMember_zero (n j : Nat) : hasMember 0#n j = false := by
  simp [hasMember]

/-! ## Placard sets (R98) -/

variable {s : State}

theorem ofGroup_iff {g : Nat} {c : Compartment} :
    s.ofGroup g c = true ↔ ∃ e, s.product c = some e ∧ e.group.val = g := by
  unfold State.ofGroup
  cases s.product c <;> simp

theorem ofGroup_eq (g : Nat) : s.ofGroup g = fun c => (s.product c).map (fun e => e.group.val) == some g := by
  funext c
  rw [Bool.eq_iff_iff, ofGroup_iff]
  simp

theorem hasMember_placardSet {quantity : Compartment → Nat} {cs : List Compartment} {g : Nat} :
    hasMember (s.placardSet quantity cs) g = true ↔
      ∃ k : Fin 15, (0 < s.groupTotal (k.val + 1) quantity cs ∧ s.threshold k ≤ s.groupTotal (k.val + 1) quantity cs) ∧
        g = k.val + 1 := by
  refine (hasMember_foldl_withMember (place := fun k : Fin 15 => k.val + 1) (fun k => by omega) _ g 0).trans ?_
  simp [hasMember_zero]

end Sys2Proof.Machine

open Sys2Proof Sys2Proof.Machine in
/-- Settles O21: the set is built group by group, each under its own condition (`hasMember_placardSet`). -/
theorem placardSetHoldsTheGroupsOverThreshold : Obligations.PlacardSetHoldsTheGroupsOverThreshold := by
  intro s quantity cs g
  rw [hasMember_placardSet]
  refine exists_congr fun k => and_comm.trans (and_congr_right fun same => ?_)
  subst same
  rw [State.groupTotal, ofGroup_eq]
end

section
/-! PROOFS. The edits of the dangerous goods tables and of the settings in CONFIG: what each admitted command leaves (R90,
R91, R94, R95, R97, R107, R142). -/

namespace Sys2Proof.Machine

variable {s : State} {o : OfficeFrame}

theorem inConfig_config {act : State → Answer} (config : s.mc.mode = .config) : inConfig act s = act s := if_pos config

/-! ## The substance table read back -/

/-- What the table holds after an entry is written: the entry under its code, every other code as before (R87, R90). -/
theorem findSubstance_putSubstance (e : Substance) (n : Nat) (l : List Substance) :
    findSubstance n (putSubstance e l) = if n = e.code then some e else findSubstance n l := by
  unfold findSubstance
  induction l with
  | nil => grind [putSubstance]
  | cons y rest ih =>
    unfold putSubstance
    split
    · grind
    · split
      · grind
      · grind

/-- What the table holds after a code is removed (R91). -/
theorem findSubstance_dropSubstance (code n : Nat) (l : List Substance) :
    findSubstance n (dropSubstance code l) = if n = code then none else findSubstance n l := by
  rw [findSubstance, dropSubstance, List.find?_filter]
  split
  · next same => simp [same]
  · next other =>
    rw [findSubstance]
    congr 1
    funext e
    by_cases found : e.code = n
    · simp [found, other]
    · simp [found]

/-- In code order, a known code has one entry to remove. -/
theorem length_dropSubstance {code : Nat} {l : List Substance} (order : l.Pairwise (fun x y => x.code < y.code))
    (known : (findSubstance code l).isSome = true) : (dropSubstance code l).length + 1 = l.length := by
  induction l with
  | nil => cases known
  | cons y rest ih =>
    obtain ⟨first, ordered⟩ := List.pairwise_cons.mp order
    by_cases same : y.code = code
    · have others : dropSubstance code rest = rest := List.filter_eq_self.mpr fun z hz => by
        have := first z hz
        simp only [bne_iff_ne, ne_eq]
        omega
      rw [show dropSubstance code (y :: rest) = dropSubstance code rest from List.filter_cons_of_neg (by simp [same]),
        others, List.length_cons]
    · have later : (findSubstance code rest).isSome = true := by
        rwa [findSubstance, List.find?_cons_of_neg (by simp [same])] at known
      rw [show dropSubstance code (y :: rest) = y :: dropSubstance code rest from List.filter_cons_of_pos (by simp [same]),
        List.length_cons, List.length_cons, ih ordered later]

/-! ## SET SUBSTANCE (R90) -/

/-- Checks 3 and 4 of R90 pass: a new code has room, a known one is written unchanged or named by no folder. -/
def State.takesSubstance (s : State) (e : Substance) : Prop :=
  s.substance e.code = none ∧ s.gcu.substances.length < 128 ∨
    s.substance e.code = some e ∨ (s.substance e.code).isSome ∧ s.namedBy e.code = none

theorem writeSubstance_taken {e : Substance} (taken : s.takesSubstance e) :
    writeSubstance e s = answerOk (s.setSubstances (putSubstance e s.gcu.substances))
      (byte1 (putSubstance e s.gcu.substances).length) := by
  unfold State.takesSubstance at taken
  unfold writeSubstance
  cases held : s.substance e.code with
  | none =>
    have room : s.gcu.substances.length < 128 := by simpa [held] using taken
    exact if_neg (Nat.not_le.mpr room)
  | some x =>
    have free : x = e ∨ s.namedBy e.code = none := by simpa [held] using taken
    refine if_neg fun ⟨differs, named⟩ => ?_
    rcases free with same | unnamed
    · exact differs same
    · simp [unnamed] at named

theorem setSubstance_completes {code fill : BitVec 16} {group cls : Byte} {g : Fin 16} {k : Fin 8} {e : Substance}
    (entry : e = ⟨code.toNat, g, k, fill.toNat⟩) (h : s.admits o .tableEdit) (config : s.mc.mode = .config)
    (real : code ≠ 0) (hg : group.toNat = g.val) (hk : cls.toNat = k.val) (low : 500 ≤ fill.toNat)
    (high : fill.toNat ≤ 1000) (taken : s.takesSubstance e) :
    exec (.setSubstance o code group cls fill) s =
      answersOk .setSubstance o (byte1 (putSubstance e s.gcu.substances).length)
        ((seen .setSubstance o s).setSubstances (putSubstance e s.gcu.substances)) := by
  subst entry
  refine officeCommand_ok h ?_
  have range : ¬(code = 0 ∨ within 500 1000 fill.toNat = false) := not_or.mpr ⟨real, by simp [within, low, high]⟩
  rw [setSubstanceAnswer, inConfig_config (by simpa using config)]
  simp only [indexOf_some.mpr hg, indexOf_some.mpr hk]
  rw [if_neg range, writeSubstance_taken (s := seen .setSubstance o s) taken, seen_gcu]

/-! ## CLEAR SUBSTANCE (R91) -/

theorem clearSubstance_completes {code : BitVec 16} (h : s.admits o .tableEdit) (config : s.mc.mode = .config)
    (real : code ≠ 0) (known : (s.substance code.toNat).isSome) (unnamed : s.namedBy code.toNat = none) :
    exec (.clearSubstance o code) s =
      answersOk .clearSubstance o (byte1 (dropSubstance code.toNat s.gcu.substances).length)
        ((seen .clearSubstance o s).setSubstances (dropSubstance code.toNat s.gcu.substances)) := by
  refine officeCommand_ok h ?_
  rw [clearSubstanceAnswer, inConfig_config (by simpa using config), if_neg real,
    if_neg (by simpa [Option.isSome_iff_ne_none] using known), if_neg (by simp [unnamed])]
  rfl

/-! ## SET MATRIX PAIR (R94, R95) -/

theorem affected_iff {g h : Fin 16} {x : Folder} : s.affected g h x = true ↔
    (x.state = .papered ∨ x.state = .assigned) ∧
      (∃ c ∈ x.compartments, ∃ e, s.product c = some e ∧ e.group = g) ∧
      ∃ c ∈ x.compartments, ∃ e, s.product c = some e ∧ e.group = h := by
  simp [State.affected, ofGroup_iff, Fin.ext_iff, and_assoc]

/-- One folder's turn in the pass of R95. -/
def returnOne (g h : Fin 16) (f : Fin 16) (s : State) : State :=
  if s.affected g h (s.folder f) then setAttention .folder (s.setFolder f (reopened (s.folder f))) else s

theorem returnAffected_eq (g h : Fin 16) (s : State) :
    returnAffected g h s = (List.finRange 16).foldl (fun s f => returnOne g h f s) s := rfl

theorem affected_returnOne (g h f : Fin 16) : (returnOne g h f s).affected g h = s.affected g h := by
  unfold returnOne
  split <;> rfl

theorem folder_returnOne (g h f k : Fin 16) :
    (returnOne g h f s).folder k =
      if f = k ∧ s.affected g h (s.folder k) = true then reopened (s.folder k) else s.folder k := by
  unfold returnOne
  grind [folder_setAttention, folder_setFolder]

theorem folderFlag_returnOne (g h f : Fin 16) :
    hasMember (returnOne g h f s).op.flags AttentionFlag.folder.bit = true ↔
      hasMember s.op.flags AttentionFlag.folder.bit = true ∨ s.affected g h (s.folder f) = true := by
  unfold returnOne
  split
  · next yes => simp [yes, setAttention, hasMember_withMember _ (show AttentionFlag.folder.bit < 8 by decide)]
  · next no => simp [no]

/-- A folder returned to OPEN is affected no longer. -/
theorem affected_reopened (g h : Fin 16) (x : Folder) : s.affected g h (reopened x) = false := rfl

/-- What the pass over a list of folders leaves: the affected ones reopened and, where there is one, FOLDER set. -/
theorem foldl_returnOne (g h : Fin 16) (l : List (Fin 16)) : ∀ s : State,
    let t := l.foldl (fun s f => returnOne g h f s) s
    (∀ k, t.folder k = if k ∈ l ∧ s.affected g h (s.folder k) = true then reopened (s.folder k) else s.folder k) ∧
    (hasMember t.op.flags AttentionFlag.folder.bit = true ↔
      hasMember s.op.flags AttentionFlag.folder.bit = true ∨ ∃ f ∈ l, s.affected g h (s.folder f) = true) := by
  induction l with
  | nil => simp
  | cons f rest ih =>
    intro s
    obtain ⟨folders, flag⟩ := ih (returnOne g h f s)
    refine ⟨fun k => ?_, ?_⟩
    · rw [List.foldl_cons, folders, affected_returnOne, folder_returnOne]
      grind [affected_reopened]
    · rw [List.foldl_cons, flag, affected_returnOne, folderFlag_returnOne]
      grind [affected_reopened, folder_returnOne]

theorem folder_returnAffected (g h k : Fin 16) :
    (returnAffected g h s).folder k =
      if s.affected g h (s.folder k) = true then reopened (s.folder k) else s.folder k := by
  rw [returnAffected_eq, (foldl_returnOne g h _ s).1]
  simp

theorem folderFlag_returnAffected (g h : Fin 16) :
    hasMember (returnAffected g h s).op.flags AttentionFlag.folder.bit = true ↔
      hasMember s.op.flags AttentionFlag.folder.bit = true ∨ ∃ f, s.affected g h (s.folder f) = true := by
  rw [returnAffected_eq, (foldl_returnOne g h _ s).2]
  simp

/-- The pass writes folders and attention flags alone. -/
theorem returnAffected_writes (g h : Fin 16) (s : State) : ∃ folders flags,
    returnAffected g h s = { s with folders := folders, op := { s.op with flags := flags } } := by
  refine overFolders_invariant (fun t => ∃ folders flags, t = { s with folders := folders, op := { s.op with flags := flags } })
    _ (fun f t ⟨folders, flags, ht⟩ => ?_) s ⟨s.folders, s.op.flags, rfl⟩
  subst ht
  split
  · exact ⟨_, _, rfl⟩
  · exact ⟨folders, flags, rfl⟩

theorem hasMember_affectedSet (g h f : Fin 16) :
    hasMember (affectedSet g h s) f.val = true ↔ s.affected g h (s.folder f) = true := by
  refine (hasMember_foldl_withMember (place := fun k : Fin 16 => k.val) (fun k => k.isLt) _ f.val 0).trans ?_
  simp [hasMember_zero, ← Fin.ext_iff]

theorem setMatrixPair_completes {g h ruling : Byte} {row col : Fin 16} {r : Ruling} (ha : s.admits o .tableEdit)
    (config : s.mc.mode = .config) (hg : g.toNat = row.val) (hh : h.toNat = col.val)
    (hr : Ruling.ofCode ruling = some r) (apart : row ≠ col) (risk : row ≠ 0) (risk' : col ≠ 0) :
    exec (.setMatrixPair o g h ruling) s =
      if s.cell row col = r then answersOk .setMatrixPair o [0, 0] (seen .setMatrixPair o s)
      else answersOk .setMatrixPair o (bytes2 (affectedSet row col s).toNat)
        (returnAffected row col ((seen .setMatrixPair o s).setCells row col r)) := by
  have written : setMatrixPairAnswer g h ruling s.officeArrival (seen .setMatrixPair o s) =
      writePair row col r (seen .setMatrixPair o s) := by
    rw [setMatrixPairAnswer, inConfig_config (by simpa using config)]
    simp [indexOf_some.mpr hg, indexOf_some.mpr hh, hr, apart, risk, risk']
  unfold writePair at written
  rw [cell_seen] at written
  split
  · next same => exact officeCommand_ok ha (by rw [written, if_pos same]; rfl)
  · next other => exact officeCommand_ok ha (by rw [written, if_neg other]; rfl)

/-! ## SET THRESHOLD, SET METERING and SET LOG WARNING (R97, R107, R142) -/

theorem setThreshold_completes {group : Byte} {quantity : BitVec 16} {k : Fin 15} (h : s.admits o .tableEdit)
    (config : s.mc.mode = .config) (hk : group.toNat = k.val + 1) (range : quantity.toNat ≤ 60000) :
    exec (.setThreshold o group quantity) s =
      answersOk .setThreshold o [] ((seen .setThreshold o s).setThreshold k quantity.toNat) := by
  refine officeCommand_ok h ?_
  have real : group ≠ 0 := by rintro rfl; simp at hk
  have place : (group - 1).toNat = k.val := by bv_omega
  rw [setThresholdAnswer, inConfig_config (by simpa using config), if_neg (not_or.mpr ⟨real, by omega⟩),
    indexOf_some.mpr place]

theorem MeterSettings.inRange_iff {m : MeterSettings} : m.inRange = true ↔
    (1 ≤ m.arms ∧ m.arms ≤ 4) ∧ (1 ≤ m.settleMin ∧ m.settleMin ≤ 15) ∧ m.settleBand ≤ 50 ∧
      (m.settleMin ≤ m.settleMax ∧ m.settleMax ≤ 63) ∧ m.passTenths ≤ 100 ∧ m.passFloor ≤ 1000 ∧
      (m.passTenths ≤ m.amendTenths ∧ m.amendTenths ≤ 200) ∧ (m.passFloor ≤ m.amendFloor ∧ m.amendFloor ≤ 2000) := by
  simp [MeterSettings.inRange, within, and_assoc]

theorem setMetering_completes {arms settleMin settleBand settleMax passTenths amendTenths : Byte}
    {passFloor amendFloor : BitVec 16} {m : MeterSettings}
    (settings : m = ⟨arms.toNat, settleMin.toNat, settleBand.toNat, settleMax.toNat, passTenths.toNat, passFloor.toNat,
      amendTenths.toNat, amendFloor.toNat⟩)
    (h : s.admits o .tableEdit) (config : s.mc.mode = .config) (range : m.inRange = true) :
    exec (.setMetering o arms settleMin settleBand settleMax passTenths passFloor amendTenths amendFloor) s =
      answersOk .setMetering o [] { seen .setMetering o s with mr := m } := by
  subst settings
  refine officeCommand_ok h ?_
  rw [setMeteringAnswer, inConfig_config (by simpa using config), if_pos range]

theorem setLogWarning_completes {level : BitVec 16} (h : s.admits o .tableEdit) (config : s.mc.mode = .config)
    (low : 1 ≤ level.toNat) (high : level.toNat ≤ 1024) :
    exec (.setLogWarning o level) s =
      answersOk .setLogWarning o [] { seen .setLogWarning o s with dl := { s.dl with level := level.toNat } } := by
  refine officeCommand_ok h ?_
  rw [setLogWarningAnswer, inConfig_config (by simpa using config), if_pos (by simp [within, low, high])]
  rfl

end Sys2Proof.Machine

open Sys2Proof Sys2Proof.Machine in
/-- Settles O46: each edit is taken, and the table it writes is read back code by code. -/
theorem substanceEditsComplete : Obligations.SubstanceEditsComplete := by
  intro s o code tables h config real
  refine ⟨?_, fun known unnamed => ?_⟩
  · intro group cls fill g k hg hk low high e taken
    exact ⟨putSubstance e s.gcu.substances, setSubstance_completes rfl h config real hg hk low high taken,
      putSubstance_codeOrder tables.codeOrder, fun n => findSubstance_putSubstance e n _⟩
  · exact ⟨dropSubstance code.toNat s.gcu.substances, clearSubstance_completes h config real known unnamed,
      length_dropSubstance tables.codeOrder known, fun n => findSubstance_dropSubstance code.toNat n _⟩

open Sys2Proof Sys2Proof.Machine in
/-- Settles O47: the pass after the writing returns each affected folder once, and neither it nor the writing changes which
folders are affected. -/
theorem matrixPairReturnsAffectedFolders : Obligations.MatrixPairReturnsAffectedFolders := by
  intro s o g h ruling row col r ha config hg hh hr apart risk risk' holds affected
  have completes := setMatrixPair_completes ha config hg hh hr apart risk risk'
  have affects : ∀ x, s.affected row col x = true ↔ affected x := fun x => affected_iff
  let u := (seen .setMatrixPair o s).setCells row col r
  have affects' : ∀ x, u.affected row col x = true ↔ affected x := affects
  refine ⟨fun same => completes.trans (if_pos same), fun other => ?_⟩
  refine ⟨returnAffected row col u, affectedSet row col s, completes.trans (if_neg other), ?_, ?_, ?_, ?_, ?_⟩
  · exact fun f => (hasMember_affectedSet row col f).trans (affects _)
  · intro f
    rw [folder_returnAffected]
    exact ⟨fun yes => if_pos ((affects' _).mpr yes), fun no => if_neg (mt (affects' _).mp no)⟩
  · intro a b
    rw [State.cell, returnAffected_gcu]
    exact cell_setCells row col a b r
  · rw [folderFlag_returnAffected]
    exact or_congr_right (exists_congr fun f => affects' _)
  · obtain ⟨folders, flags, written⟩ := returnAffected_writes row col u
    rw [written]
    rfl

open Sys2Proof Sys2Proof.Machine in
/-- Settles O48: each setting in range reaches its writing. -/
theorem settingEditsComplete : Obligations.SettingEditsComplete :=
  fun _ _ h config =>
    ⟨fun _ _ _ hk range => setThreshold_completes h config hk range,
      fun _ _ _ _ _ _ _ _ arms settleMin settleBand settleMax passTenths passFloor amendTenths amendFloor =>
        setMetering_completes rfl h config (MeterSettings.inRange_iff.mpr
          ⟨arms, settleMin, settleBand, settleMax, passTenths, passFloor, amendTenths, amendFloor⟩),
      fun _ low high => setLogWarning_completes h config low high⟩
end

section
/-! PROOFS. The Delivery Log and the denial record: what each change does to them, and that a step keeps both in order
(R135, R137, R140, R157). -/

namespace Sys2Proof.Machine

variable {s t : State} {late : Prop}

/-! ## Logs in sequence (R135) -/

/-- The entries of a log stand one after another in sequence, the newest one below the next sequence number. -/
def InSequence (held : List LogEntry) (next : Nat) : Prop :=
  ∀ k (h : k < held.length), held[k].sequence + (held.length - k) = next

theorem InSequence.append {held : List LogEntry} {next : Nat} (h : InSequence held next) {e : LogEntry}
    (numbered : e.sequence = next) : InSequence (held ++ [e]) (next + 1) := by
  intro k hk
  rw [List.length_append, List.length_singleton] at hk ⊢
  rcases Nat.lt_or_ge k held.length with old | new
  · have := h k old
    rw [List.getElem_append_left old]
    omega
  · have last : k = held.length := by omega
    subst last
    simp [numbered]

theorem InSequence.drop {held : List LogEntry} {next : Nat} (h : InSequence held next) (n : Nat) :
    InSequence (held.drop n) next := by
  intro k hk
  rw [List.length_drop] at hk ⊢
  have := h (n + k) (by omega)
  rw [List.getElem_drop]
  omega

/-- In a log in sequence a newer entry has the higher number. -/
theorem InSequence.pairwise {held : List LogEntry} {next : Nat} (h : InSequence held next) :
    held.Pairwise (fun e x => e.sequence < x.sequence) := by
  rw [List.pairwise_iff_getElem]
  intro i j hi hj less
  have := h i hi
  have := h j hj
  omega

/-! ## Writes of the log (R137, R140) -/

/-- An append writes the entry at the newest end and raises the next sequence number (R137). -/
theorem appendEntry_dl (e : LogEntry) (s : State) : (appendEntry e s).dl =
    { s.dl with held := s.dl.held ++ [e], nextSequence := s.dl.nextSequence + 1 } := by
  unfold appendEntry
  dsimp only
  split <;> rfl

theorem grantRelease_dl (f : Fin 16) (arrival : Nat) (s : State) : ∃ e, (grantRelease f arrival s).dl =
    { s.dl with held := s.dl.held ++ [e], nextSequence := s.dl.nextSequence + 1 } ∧
    e.sequence = s.dl.nextSequence ∧ e.time = arrival :=
  ⟨_, appendEntry_dl _ s, rfl, rfl⟩

theorem voidLogged_dl (arrival : Nat) (f : Fin 16) (s : State) : (voidLogged arrival f s).dl =
    if (s.folder f).hasProduct then
      { s.dl with held := s.dl.held ++ [entryOf s f .voided arrival none none], nextSequence := s.dl.nextSequence + 1 }
    else s.dl := by
  unfold voidLogged
  split
  · exact appendEntry_dl _ s
  · rfl

/-- An acknowledgement takes entries off the oldest end (R140). -/
theorem acknowledged_eq_drop (n : Nat) (held : List LogEntry) : ∃ k, acknowledged n held = held.drop k :=
  ⟨_, List.suffix_iff_eq_drop.mp (List.dropWhile_suffix _)⟩

theorem coldStart_dl (cause : StartCause) (s : State) : (coldStart cause s).dl = State.reset.dl := by
  simp [coldStart, commonStart, coldValues]

theorem warmStart_dl (cause : StartCause) (s : State) : (warmStart cause s).dl = s.dl := by
  simp [warmStart, commonStart]

/-- A mode request writes the mode or the pending target alone (R188). -/
theorem requestedMode_keeps {m : Mode} (ht : requestedMode m s = some t) : t.dl = s.dl ∧ t.rc = s.rc := by
  unfold requestedMode at ht
  (repeat' split at ht) <;> cases ht <;> exact ⟨rfl, rfl⟩

/-! ## What a change does to the log -/

/-- From `s` to `t` the entries and the next sequence number stay. -/
structure SameLog (s t : State) : Prop where
  held : t.dl.held = s.dl.held
  next : t.dl.nextSequence = s.dl.nextSequence

/-- From `s` to `t` entries are acknowledged up to a sequence number (R140). -/
structure LogAcknowledged (s t : State) : Prop where
  held : ∃ n, t.dl.held = acknowledged n s.dl.held
  next : t.dl.nextSequence = s.dl.nextSequence

/-- From `s` to `t` one entry joins a log that was not full, under the next sequence number, which rises by one (R137). -/
structure LogGrown (s t : State) : Prop where
  room : s.logFull = false
  held : ∃ e, t.dl.held = s.dl.held ++ [e] ∧ e.sequence = s.dl.nextSequence ∧ e.time ≤ s.tc.clock
  next : t.dl.nextSequence = s.dl.nextSequence + 1

theorem SameLog.of_dl (h : t.dl = s.dl) : SameLog s t := ⟨by rw [h], by rw [h]⟩

/-- A grant appends its entry (R130). -/
theorem grantRelease_grows {f : Fin 16} {arrival : Nat} (past : arrival ≤ s.tc.clock) (room : s.logFull = false) :
    LogGrown s (grantRelease f arrival s) := by
  obtain ⟨e, grown, numbered, timed⟩ := grantRelease_dl f arrival s
  exact ⟨room, ⟨e, by rw [grown], numbered, timed ▸ past⟩, by rw [grown]⟩

/-- VOID appends an entry where product was metered (R80). -/
theorem voidLogged_grows {f : Fin 16} {arrival : Nat} (past : arrival ≤ s.tc.clock)
    (room : (s.folder f).hasProduct = true → s.logFull = false) (ht : t.dl = (voidLogged arrival f s).dl) :
    SameLog s t ∨ LogGrown s t := by
  rw [voidLogged_dl] at ht
  split at ht
  · next product => exact .inr ⟨room product, ⟨_, by rw [ht], rfl, past⟩, by rw [ht]⟩
  · exact .inl (.of_dl ht)

/-- The folder's freeing and the end of its loading leave the log as VOID's append left it (R80). -/
theorem voided_dl (f : Fin 16) (arrival : Nat) (s : State) :
    (let freed := freeFolder f (voidStops f (voidLogged arrival f s))
      if (s.folder f).state = .loading then leftLoading freed else freed).dl = (voidLogged arrival f s).dl := by
  dsimp only
  split <;> simp

theorem Change.log (c : Change late s t) :
    SameLog s t ∨ LogAcknowledged s t ∨ LogGrown s t ∨ t.dl = State.reset.dl := by
  cases c with
  | logAcknowledged n => exact .inr (.inl ⟨⟨n, rfl⟩, rfl⟩)
  | released f arrival past state room => exact .inr (.inr (.inl (grantRelease_grows past room)))
  | voided f arrival past held room =>
    rcases voidLogged_grows past room (voided_dl f arrival s) with same | grown
    · exact .inl same
    · exact .inr (.inr (.inl grown))
  | coldStarted cause => exact .inr (.inr (.inr (coldStart_dl cause s)))
  | warmStarted cause => exact .inl (.of_dl (warmStart_dl cause s))
  | modeRequested m t ht => exact .inl (.of_dl (requestedMode_keeps ht).1)
  | levelWritten => exact .inl ⟨rfl, rfl⟩
  | replyPlaced | flagsWritten | enablesWritten | pinsWritten | rightsWritten | meteringWritten | replyJoined | placeGivenUp
  | folderPlanned | linkWritten | compartmentStarted | compartmentReported => exact .inl ⟨rfl, rfl⟩
  | _ => exact .inl (.of_dl (by simp))

/-! ## What a change does to the denial record -/

/-- The denial record stays, starts empty, or takes a denial that is not a supervisor's (R157). -/
theorem Change.denials (c : Change late s t) : t.rc.denials = s.rc.denials ∨ t.rc.denials = [] ∨
    ∃ d : Denial, d.role ≠ .supervisor ∧ t.rc.denials = addDenial d s.rc.denials := by
  cases c with
  | denied d h => exact .inr (.inr ⟨d, h, rfl⟩)
  | coldStarted | warmStarted => exact .inr (.inl (by simp [coldStart, warmStart, commonStart]))
  | modeRequested m t ht => exact .inl (by rw [(requestedMode_keeps ht).2])
  | voided => exact .inl (by dsimp only; split <;> simp)
  | replyPlaced | flagsWritten | enablesWritten | pinsWritten | rightsWritten | meteringWritten | replyJoined | placeGivenUp
  | folderPlanned | linkWritten | compartmentStarted | compartmentReported | logAcknowledged | levelWritten => exact .inl rfl
  | _ => exact .inl (by simp)

theorem addDenial_length (d : Denial) (ring : List Denial) : (addDenial d ring).length ≤ 8 := by
  unfold addDenial
  split <;> simp <;> omega

theorem mem_addDenial {d x : Denial} {ring : List Denial} (h : x ∈ addDenial d ring) : x ∈ ring ∨ x = d := by
  unfold addDenial at h
  split at h
  · simpa using h
  · exact (List.mem_append.mp h).imp List.mem_of_mem_drop (by simpa using ·)

/-! ## Every change keeps both -/

/-- The part of `State.LogOk` that speaks of the log. -/
structure LogInOrder (s : State) : Prop where
  count : s.dl.held.length ≤ 1024
  next : 1 ≤ s.dl.nextSequence ∧ s.dl.nextSequence ≤ maxSequence
  consecutive : InSequence s.dl.held s.dl.nextSequence

/-- The part of `State.LogOk` that speaks of the denial record. -/
structure DenialsBounded (s : State) : Prop where
  count : s.rc.denials.length ≤ 8
  neverSupervisor : ∀ d ∈ s.rc.denials, d.role ≠ .supervisor

theorem logOk_iff : s.LogOk ↔ LogInOrder s ∧ DenialsBounded s :=
  ⟨fun h => ⟨⟨h.count, h.next, h.consecutive⟩, h.denials, h.neverSupervisor⟩,
    fun ⟨log, denials⟩ => ⟨log.count, log.next, log.consecutive, denials.count, denials.neverSupervisor⟩⟩

theorem LogGrown.inOrder (g : LogGrown s t) (h : LogInOrder s) : LogInOrder t := by
  obtain ⟨room, ⟨e, held, numbered, -⟩, next⟩ := g
  simp only [State.logFull, Bool.or_eq_false_iff, decide_eq_false_iff_not, beq_eq_false_iff_ne] at room
  obtain ⟨space, numbers⟩ := room
  have bounds := h.next
  refine ⟨?_, ?_, ?_⟩
  · rw [held, List.length_append, List.length_singleton]
    omega
  · rw [next]
    omega
  · rw [held, next]
    exact h.consecutive.append numbered

theorem LogAcknowledged.inOrder (a : LogAcknowledged s t) (h : LogInOrder s) : LogInOrder t := by
  obtain ⟨⟨n, left⟩, next⟩ := a
  obtain ⟨k, dropped⟩ := acknowledged_eq_drop n s.dl.held
  rw [dropped] at left
  refine ⟨?_, next ▸ h.next, ?_⟩
  · rw [left, List.length_drop]
    exact Nat.le_trans (Nat.sub_le ..) h.count
  · rw [left, next]
    exact h.consecutive.drop k

theorem Change.keeps_logInOrder (h : LogInOrder s) (c : Change late s t) : LogInOrder t := by
  rcases c.log with same | acknowledged | grown | cold
  · exact ⟨same.held ▸ h.count, same.next ▸ h.next, by rw [same.held, same.next]; exact h.consecutive⟩
  · exact acknowledged.inOrder h
  · exact grown.inOrder h
  · exact ⟨by rw [cold]; decide, by rw [cold]; decide, by rw [cold]; exact fun k hk => absurd hk (Nat.not_lt_zero k)⟩

theorem Change.keeps_denialsBounded (h : DenialsBounded s) (c : Change late s t) : DenialsBounded t := by
  rcases c.denials with same | empty | ⟨d, role, added⟩
  · exact ⟨same ▸ h.count, same ▸ h.neverSupervisor⟩
  · exact ⟨by simp [empty], by simp [empty]⟩
  · refine ⟨added ▸ addDenial_length d _, fun x hx => ?_⟩
    rcases mem_addDenial (added ▸ hx) with old | rfl
    · exact h.neverSupervisor x old
    · exact role

theorem Change.keeps_log (h : s.LogOk) (c : Change late s t) : t.LogOk :=
  logOk_iff.mpr ((logOk_iff.mp h).imp (fun log => c.keeps_logInOrder log) fun denials => c.keeps_denialsBounded denials)

end Sys2Proof.Machine

open Sys2Proof Sys2Proof.Machine in
/-- Settles O15: a step is a run of changes (`exec_changes`); the log only grows at its newest end with room left, shrinks at
its oldest or starts anew, and a denial added to a full ring first drops the oldest. -/
theorem stepKeepsTheLog : Obligations.StepKeepsTheLog := by
  intro s t h hstep
  rcases step_cases hstep with rfl | ⟨i, rest, hexec⟩
  · exact h
  · have queued : ({ s with pending := rest } : State).LogOk := { h with }
    exact (exec_changes hexec).keeps (fun _ _ hs c => c.keeps_log hs) queued
end

section
/-! PROOFS. Which commands write the log: the frame of every other command's owner, and the outcome of the three that write
it (R137, R138, R140, R195). -/

namespace Sys2Proof.Machine

variable {s t u v : State}

/-! ## States that hold the same log -/

theorem SameLog.congr (h : SameLog u v) (before : u.dl = s.dl) (after : t.dl = v.dl) : SameLog s t :=
  ⟨by rw [after, h.held, before], by rw [after, h.next, before]⟩

theorem LogAcknowledged.congr (h : LogAcknowledged u v) (before : u.dl = s.dl) (after : t.dl = v.dl) :
    LogAcknowledged s t :=
  ⟨by simpa only [after, before] using h.held, by rw [after, h.next, before]⟩

theorem LogGrown.congr (h : LogGrown u v) (before : u.dl = s.dl) (clock : u.tc = s.tc) (after : t.dl = v.dl) :
    LogGrown s t :=
  ⟨by simpa only [State.logFull, before] using h.room, by simpa only [after, before, clock] using h.held,
    by rw [after, h.next, before]⟩

/-- A log that stays has lost no entry at its oldest end; whatever else is asked for the entries that stay holds. -/
theorem SameLog.settled (h : SameLog s t) (p : Prop) :
    t.dl.nextSequence = s.dl.nextSequence ∧ (p → t.dl.held = s.dl.held) ∧ ∃ n, t.dl.held = s.dl.held.drop n :=
  ⟨h.next, fun _ => h.held, 0, h.held⟩

/-! ## Office commands -/

theorem transaction_sameLog {m : OfficeMoment} {n : Nat} {handle : State → State} (h : (handle s).dl = s.dl) :
    SameLog s (transaction m n handle s) := by
  rcases transaction_cases m n handle s with e | ⟨_, _, _, _, e⟩ | e
  · exact .of_dl (by rw [e])
  · exact .of_dl (by rw [e, portMoved_dl])
  · exact .of_dl (by rw [e, h])

/-- A moment of a transaction that handles no command leaves the log. -/
theorem transaction_unhandled_dl {o : OfficeFrame} {n : Nat} {handle : State → State} (h : ¬s.handles o) :
    (transaction o.moment n handle s).dl = s.dl := by
  unfold transaction
  split
  · next powered =>
    split
    · unfold oselFalls
      split <;> rfl
    · unfold oselRises
      split <;> rfl
    · next moment =>
      split
      · next waits =>
        simp only [State.commandWaits, Bool.and_eq_true, Bool.not_eq_true'] at waits
        exact absurd ⟨by simp [State.running, powered, waits.1], .inl ⟨moment, waits.2⟩⟩ h
      · rfl
    · next moment =>
      split
      · rfl
      · next taken =>
        simp only [State.refuses, State.portBusy, Bool.or_eq_true, not_or, Bool.not_eq_true] at taken
        obtain ⟨notRefused, high, idle⟩ := taken
        exact absurd ⟨by simp [State.running, powered, high], .inr ⟨moment, idle, notRefused⟩⟩ h
  · rfl

/-- An office command leaves the log, or is admitted and leaves it as its owner does. -/
theorem officeCommandOf_dl_cases (c : OfficeCommand) (cls : State → CommandClass) (o : OfficeFrame)
    (owner : Nat → State → Answer) (s : State) : (officeCommandOf c cls o owner s).dl = s.dl ∨
      s.admits o (cls s) ∧ (officeCommandOf c cls o owner s).dl = (owner s.officeArrival (seen c o s)).state.dl := by
  by_cases handled : s.handles o
  · by_cases passes : officePasses s o (cls s) = true
    · exact .inr ⟨⟨handled, passes⟩, by rw [officeCommandOf_admitted ⟨handled, passes⟩, placeReply_dl]⟩
    · exact .inl (by rw [officeCommandOf_denied handled (by simpa using passes)]; rfl)
  · exact .inl (transaction_unhandled_dl handled)

theorem officeCommandOf_sameLog {c : OfficeCommand} {cls : State → CommandClass} {o : OfficeFrame}
    {owner : Nat → State → Answer} (h : ∀ arrival t, SameLog t (owner arrival t).state) :
    SameLog s (officeCommandOf c cls o owner s) := by
  rcases officeCommandOf_dl_cases c cls o owner s with same | ⟨-, owned⟩
  · exact .of_dl same
  · exact (h s.officeArrival (seen c o s)).congr rfl owned

theorem officeCommand_sameLog {c : OfficeCommand} {o : OfficeFrame} {owner : Nat → State → Answer}
    (h : ∀ arrival t, (owner arrival t).state.dl = t.dl) : SameLog s (officeCommand c o owner s) :=
  officeCommandOf_sameLog fun arrival t => .of_dl (h arrival t)

theorem onAccount_dl {index : Byte} {act : Fin 64 → State → Answer} (h : ∀ i, (act i s).state.dl = s.dl) :
    (onAccount index act s).state.dl = s.dl := by
  unfold onAccount
  (repeat' split)
  · rfl
  · rfl
  · exact h _

theorem onFolder_dl {folder : Byte} {act : Fin 16 → State → Answer} (h : ∀ f, (act f s).state.dl = s.dl) :
    (onFolder folder act s).state.dl = s.dl := by
  unfold onFolder
  split
  · rfl
  · exact h _

theorem onFolderIn_cases (folder : Byte) (states : List FolderState) (act : Fin 16 → State → Answer) (s : State) :
    (onFolderIn folder states act s).state = s ∨ ∃ f, (onFolderIn folder states act s).state = (act f s).state := by
  unfold onFolderIn onFolder
  split
  · exact .inl rfl
  · dsimp only
    split
    · exact .inr ⟨_, rfl⟩
    · exact .inl rfl

theorem onFolderIn_dl {folder : Byte} {states : List FolderState} {act : Fin 16 → State → Answer}
    (h : ∀ f, (act f s).state.dl = s.dl) : (onFolderIn folder states act s).state.dl = s.dl := by
  rcases onFolderIn_cases folder states act s with refused | ⟨f, held⟩
  · rw [refused]
  · rw [held, h]

theorem inConfig_dl {act : State → Answer} (h : (act s).state.dl = s.dl) : (inConfig act s).state.dl = s.dl := by
  unfold inConfig
  split
  · exact h
  · rfl

/-! ## The owners of accounts, profiles and clock -/

theorem openAccountAnswer_dl (card : BitVec 32) (p e : Byte) (x : BitVec 16) (arrival : Nat) (s : State) :
    (openAccountAnswer card p e x arrival s).state.dl = s.dl := by
  unfold openAccountAnswer
  (repeat' split) <;> simp

theorem editAccountAnswer_dl (index : Byte) (card : BitVec 32) (p e : Byte) (x : BitVec 16) (arrival : Nat) (s : State) :
    (editAccountAnswer index card p e x arrival s).state.dl = s.dl := by
  unfold editAccountAnswer
  (repeat' split) <;> simp

theorem suspendAnswer_dl (i : Fin 64) (s : State) : (suspendAnswer i s).state.dl = s.dl := by
  unfold suspendAnswer
  split <;> simp

theorem resumeAnswer_dl (i : Fin 64) (s : State) : (resumeAnswer i s).state.dl = s.dl := by
  unfold resumeAnswer
  split <;> simp

theorem closeAnswer_dl (i : Fin 64) (s : State) : (closeAnswer i s).state.dl = s.dl := by
  unfold closeAnswer
  split <;> simp

theorem setStatusAnswer_dl (index status : Byte) (time : BitVec 32) (arrival : Nat) (s : State) :
    (setStatusAnswer index status time arrival s).state.dl = s.dl := by
  unfold setStatusAnswer
  split
  · dsimp only
    split <;> simp
  · rfl

theorem setProfileAnswer_dl (letter : Byte) (l : Limits) (arrival : Nat) (s : State) :
    (setProfileAnswer letter l arrival s).state.dl = s.dl := by
  unfold setProfileAnswer writeProfile
  (repeat' split) <;> simp

theorem cancelPendingProfileAnswer_dl (letter : Byte) (arrival : Nat) (s : State) :
    (cancelPendingProfileAnswer letter arrival s).state.dl = s.dl := by
  unfold cancelPendingProfileAnswer
  (repeat' split) <;> simp

theorem setTimeAnswer_dl (value offset arrival : Nat) (s : State) :
    (setTimeAnswer value offset arrival s).state.dl = s.dl := by
  unfold setTimeAnswer
  (repeat' split) <;> simp

theorem adjustTimeAnswer_dl (seconds arrival : Nat) (s : State) : (adjustTimeAnswer seconds arrival s).state.dl = s.dl := by
  unfold adjustTimeAnswer
  split <;> simp

/-! ## The owners of folders -/

theorem createFolderAnswer_dl (tanker : BitVec 32) (primary second : Byte) (drive duty : BitVec 16) (count : Byte)
    (slots : Vector (BitVec 16) 6) (arrival : Nat) (s : State) :
    (createFolderAnswer tanker primary second drive duty count slots arrival s).state.dl = s.dl := by
  unfold createFolderAnswer createChecked
  (repeat' split) <;> simp

theorem setCompartmentAnswer_dl (folder compartment : Byte) (capacity substance declared : BitVec 16) (arrival : Nat)
    (s : State) : (setCompartmentAnswer folder compartment capacity substance declared arrival s).state.dl = s.dl := by
  refine onFolder_dl fun f => ?_
  (repeat' split) <;> rfl

theorem setPapersAnswer_dl (folder count : Byte) (slots : Vector (BitVec 16 × Byte) 6) (arrival : Nat) (s : State) :
    (setPapersAnswer folder count slots arrival s).state.dl = s.dl := by
  refine onFolder_dl fun f => ?_
  dsimp only
  (repeat' split) <;> rfl

theorem setTripAnswer_dl (folder : Byte) (drive duty : BitVec 16) (arrival : Nat) (s : State) :
    (setTripAnswer folder drive duty arrival s).state.dl = s.dl := by
  unfold setTripAnswer
  split
  · rfl
  · exact onFolderIn_dl fun f => rfl

theorem submitOpen_dl (arrival : Nat) (f : Fin 16) (s : State) : (submitOpen arrival f s).state.dl = s.dl := by
  unfold submitOpen
  dsimp only
  split <;> rfl

theorem assignBayAnswer_dl (folder bay : Byte) (arrival : Nat) (s : State) :
    (assignBayAnswer folder bay arrival s).state.dl = s.dl := by
  unfold assignBayAnswer
  (repeat' split) <;> rfl

theorem amendAnswer_dl (folder compartment : Byte) (declared : BitVec 16) (arrival : Nat) (s : State) :
    (amendAnswer folder compartment declared arrival s).state.dl = s.dl := by
  refine onFolder_dl fun f => ?_
  (repeat' split) <;> rfl

theorem finishHeld_dl (f : Fin 16) (s : State) : (finishHeld f s).state.dl = s.dl := by
  simp [finishHeld]

theorem readFolderAnswer_dl (f : Fin 16) (s : State) : (readFolderAnswer f s).state.dl = s.dl := by
  unfold readFolderAnswer
  split <;> rfl

/-- VOID leaves the log or appends its entry (R80). -/
theorem voidHeld_log {arrival : Nat} (past : arrival ≤ s.tc.clock) (f : Fin 16) :
    SameLog s (voidHeld arrival f s).state ∨ LogGrown s (voidHeld arrival f s).state := by
  unfold voidHeld
  split
  · exact .inl ⟨rfl, rfl⟩
  · next full =>
    exact voidLogged_grows past (fun product => by simpa [product] using full) (voided_dl f arrival s)

/-! ## The owners of tables, settings, rights, port and modes -/

theorem setSubstanceAnswer_dl (code : BitVec 16) (group cls : Byte) (fill : BitVec 16) (arrival : Nat) (s : State) :
    (setSubstanceAnswer code group cls fill arrival s).state.dl = s.dl := by
  refine inConfig_dl ?_
  unfold writeSubstance
  dsimp only
  (repeat' split) <;> rfl

theorem clearSubstanceAnswer_dl (code : BitVec 16) (arrival : Nat) (s : State) :
    (clearSubstanceAnswer code arrival s).state.dl = s.dl := by
  refine inConfig_dl ?_
  (repeat' split) <;> rfl

theorem setMatrixPairAnswer_dl (g h ruling : Byte) (arrival : Nat) (s : State) :
    (setMatrixPairAnswer g h ruling arrival s).state.dl = s.dl := by
  refine inConfig_dl ?_
  unfold writePair
  (repeat' split) <;> simp

theorem setThresholdAnswer_dl (group : Byte) (quantity : BitVec 16) (arrival : Nat) (s : State) :
    (setThresholdAnswer group quantity arrival s).state.dl = s.dl := by
  refine inConfig_dl ?_
  (repeat' split) <;> rfl

theorem setMeteringAnswer_dl (m : MeterSettings) (arrival : Nat) (s : State) :
    (setMeteringAnswer m arrival s).state.dl = s.dl := by
  refine inConfig_dl ?_
  split <;> rfl

/-- SET LOG WARNING writes the level alone (R142). -/
theorem setLogWarningAnswer_sameLog (level : BitVec 16) (arrival : Nat) (s : State) :
    SameLog s (setLogWarningAnswer level arrival s).state := by
  unfold setLogWarningAnswer inConfig
  (repeat' split) <;> exact ⟨rfl, rfl⟩

/-- ACK LOG acknowledges entries, or is refused (R140). -/
theorem ackLogAnswer_log (n arrival : Nat) (s : State) :
    SameLog s (ackLogAnswer n arrival s).state ∨ LogAcknowledged s (ackLogAnswer n arrival s).state := by
  unfold ackLogAnswer
  split
  · exact .inl ⟨rfl, rfl⟩
  · exact .inr ⟨⟨n, rfl⟩, rfl⟩

theorem setRightsAnswer_dl (groups : BitVec 16) (value : Byte) (arrival : Nat) (s : State) :
    (setRightsAnswer groups value arrival s).state.dl = s.dl := by
  unfold setRightsAnswer
  (repeat' split) <;> rfl

theorem setLinkAnswer_dl (period : BitVec 16) (silence : Byte) (enrolled : BitVec 16) (arrival : Nat) (s : State) :
    (setLinkAnswer period silence enrolled arrival s).state.dl = s.dl := by
  refine inConfig_dl ?_
  (repeat' split) <;> rfl

theorem readmitNodeAnswer_dl (node : Byte) (arrival : Nat) (s : State) :
    (readmitNodeAnswer node arrival s).state.dl = s.dl := by
  unfold readmitNodeAnswer
  split <;> rfl

theorem ackAttentionAnswer_dl (flags : BitVec 16) (arrival : Nat) (s : State) :
    (ackAttentionAnswer flags arrival s).state.dl = s.dl := by
  unfold ackAttentionAnswer
  split <;> rfl

theorem setEnablesAnswer_dl (mask value : BitVec 16) (arrival : Nat) (s : State) :
    (setEnablesAnswer mask value arrival s).state.dl = s.dl := by
  unfold setEnablesAnswer
  split <;> rfl

theorem requestModeAnswer_dl (target : Byte) (arrival : Nat) (s : State) :
    (requestModeAnswer target arrival s).state.dl = s.dl := by
  unfold requestModeAnswer
  (repeat' split)
  · rfl
  · rfl
  · next requested => exact (requestedMode_keeps requested).1

/-- CLEAR ALL outside CONFIG is refused (R196). -/
theorem clearAllAnswer_dl (mode : s.mc.mode ≠ .config) (arrival : Nat) : (clearAllAnswer arrival s).state.dl = s.dl := by
  rw [clearAllAnswer, if_neg mode, answerRefused_state]

/-! ## The link -/

/-- A good frame leaves the log, or is served and leaves it as its service does. -/
theorem goodFrame_dl_cases (n : Fin 9) (m : SlotMoment) (isIdle : Bool) (serve : Nat → State → State) (s : State) :
    (goodFrame n m isIdle serve s).dl = s.dl ∨
      (goodFrame n m isIdle serve s).dl = (serve (s.frameArrival n) (frameTaken n s)).dl := by
  rcases goodFrame_cases n m isIdle serve s with e | e | e | ⟨-, e⟩ | ⟨-, -, -, e⟩
  · exact .inl (by rw [e])
  · exact .inl (by rw [e, frameReceived_dl])
  · exact .inl (by rw [e, slotClosed_dl])
  · exact .inl (by rw [e, heard_dl])
  · exact .inr (by rw [e])

theorem goodFrame_sameLog {n : Fin 9} {m : SlotMoment} {isIdle : Bool} {serve : Nat → State → State}
    (h : ∀ arrival t, (serve arrival t).dl = t.dl) : SameLog s (goodFrame n m isIdle serve s) := by
  rcases goodFrame_dl_cases n m isIdle serve s with same | served
  · exact .of_dl same
  · exact .of_dl (by rw [served, h, frameTaken_dl])

theorem requestFrame_dl_cases (k : MessageKind) (l : LinkFrame) (serve : Nat → State → LinkAnswer) (s : State) :
    (requestFrame k l serve s).dl = s.dl ∨
      (requestFrame k l serve s).dl = (serve (s.frameArrival l.node) (frameTaken l.node s)).state.dl := by
  rcases goodFrame_dl_cases l.node l.moment (k == .idle)
      (fun arrival t => settleReply l.node l.tag (replyClass k) (serve arrival t)) s with same | served
  · exact .inl same
  · exact .inr (served.trans (settleReply_dl ..))

theorem requestFrame_sameLog {k : MessageKind} {l : LinkFrame} {serve : Nat → State → LinkAnswer}
    (h : ∀ arrival t, (serve arrival t).state.dl = t.dl) : SameLog s (requestFrame k l serve s) := by
  rcases requestFrame_dl_cases k l serve s with same | served
  · exact .of_dl same
  · exact .of_dl (by rw [served, h, frameTaken_dl])

theorem bayRights_dl {k : MessageKind} {n : Fin 9} {arrival : Nat} {owner : Fin 8 → State → LinkAnswer}
    (h : ∀ b, (owner b s).state.dl = s.dl) : (bayRights k n arrival owner s).state.dl = s.dl := by
  unfold bayRights
  split
  · exact h _
  · rfl

theorem gateRights_cases (k : MessageKind) (n : Fin 9) (arrival : Nat) (owner : State → LinkAnswer) (s : State) :
    (gateRights k n arrival owner s).state.dl = s.dl ∨ gateRights k n arrival owner s = owner s := by
  unfold gateRights
  split
  · exact .inl rfl
  · exact .inr rfl

theorem gateRights_dl {k : MessageKind} {n : Fin 9} {arrival : Nat} {owner : State → LinkAnswer}
    (h : (owner s).state.dl = s.dl) : (gateRights k n arrival owner s).state.dl = s.dl := by
  rcases gateRights_cases k n arrival owner s with denied | owned
  · exact denied
  · rw [owned, h]

theorem windowed_dl {k : MessageKind} {n : Fin 9} {number : Byte} {arrival : Nat}
    {owner : Fin 8 → Fin 16 → State → LinkAnswer} {b : Fin 8} (h : ∀ f, (owner b f s).state.dl = s.dl) :
    (windowed k n number arrival owner b s).state.dl = s.dl := by
  unfold windowed
  (repeat' split)
  · rfl
  · exact h _
  · rfl

theorem windowRequest_sameLog {k : MessageKind} {l : LinkFrame} {number : Byte}
    {owner : Nat → Fin 8 → Fin 16 → State → LinkAnswer} (h : ∀ arrival b f t, (owner arrival b f t).state.dl = t.dl) :
    SameLog s (windowRequest k l number owner s) :=
  requestFrame_sameLog fun arrival t => bayRights_dl fun b => windowed_dl fun f => h arrival b f t

theorem gateRequest_sameLog {k : MessageKind} {l : LinkFrame} {owner : Nat → State → LinkAnswer}
    (h : ∀ arrival t, (owner arrival t).state.dl = t.dl) : SameLog s (gateRequest k l owner s) :=
  requestFrame_sameLog fun arrival t => gateRights_dl (h arrival t)

theorem onCompartment_dl {compartment : Byte} {act : Compartment → State → LinkAnswer} {f : Fin 16}
    (h : ∀ c, (act c s).state.dl = s.dl) : (onCompartment compartment act f s).state.dl = s.dl := by
  unfold onCompartment
  (repeat' split)
  · rfl
  · exact h _
  · rfl

theorem cardAnswer_dl (leftRun : Bool) (tanker number : BitVec 32) (arrival : Nat) (b : Fin 8) (s : State) :
    (cardAnswer leftRun tanker number arrival b s).state.dl = s.dl := by
  unfold cardAnswer acceptCard
  dsimp only
  (repeat' split) <;> simp

theorem startAnswer_dl (compartment : Byte) (arrival : Nat) (b : Fin 8) (f : Fin 16) (s : State) :
    (startAnswer compartment arrival b f s).state.dl = s.dl := by
  refine onCompartment_dl fun c => ?_
  unfold startOn
  (repeat' split) <;> rfl

theorem totalAnswer_dl (compartment : Byte) (litres : BitVec 16) (flowing : Byte) (arrival : Nat) (b : Fin 8) (f : Fin 16)
    (s : State) : (totalAnswer compartment litres flowing arrival b f s).state.dl = s.dl := by
  unfold totalAnswer
  split
  · rfl
  · refine onCompartment_dl fun c => ?_
    unfold totalOn
    (repeat' split) <;> rfl

theorem endAnswer_dl (compartment : Byte) (arrival : Nat) (b : Fin 8) (f : Fin 16) (s : State) :
    (endAnswer compartment arrival b f s).state.dl = s.dl := by
  refine onCompartment_dl fun c => ?_
  unfold endOn
  split <;> rfl

theorem doneAnswer_dl (arrival : Nat) (b : Fin 8) (f : Fin 16) (s : State) : (doneAnswer arrival b f s).state.dl = s.dl := by
  unfold doneAnswer
  dsimp only
  (repeat' split) <;> simp

theorem entryAnswer_dl (number : BitVec 32) (arrival : Nat) (s : State) : (entryAnswer number arrival s).state.dl = s.dl := by
  unfold entryAnswer
  (repeat' split) <;> simp

theorem exitAnswer_dl (folder : Byte) (arrival : Nat) (s : State) : (exitAnswer folder arrival s).state.dl = s.dl := by
  unfold exitAnswer
  (repeat' split) <;> simp

/-- RELEASE leaves the log, or is granted and appends its entry (R130, R131). -/
theorem releaseAnswer_log {arrival : Nat} (past : arrival ≤ s.tc.clock) (folder : Byte) (placards : BitVec 16) :
    SameLog s (releaseAnswer folder placards arrival s).state ∨ LogGrown s (releaseAnswer folder placards arrival s).state := by
  unfold releaseAnswer releaseReady
  dsimp only
  (repeat' split)
  · exact .inl ⟨rfl, rfl⟩
  · exact .inl ⟨rfl, rfl⟩
  · exact .inl ⟨rfl, rfl⟩
  · next noReason =>
    simp only [releaseReasons, List.append_eq_nil_iff] at noReason
    exact .inr (grantRelease_grows past (by simpa using noReason.2))
  · exact .inl ⟨rfl, rfl⟩

theorem slotEvent_dl (n : Fin 9) (entry : NodeEntry → NodeEntry) (s : State) : (slotEvent n entry s).dl = s.dl := by
  unfold slotEvent
  (repeat' split) <;> simp

/-! ## Clock, starts and power -/

theorem settleBoundary_dl (s : State) : (settleBoundary s).dl = s.dl := by
  unfold settleBoundary
  split <;> simp

theorem minuteBoundary_dl (s : State) : (minuteBoundary s).dl = s.dl := by
  unfold minuteBoundary enterMinute
  (repeat' split) <;> simp

theorem enterMinute_dl (s : State) : (enterMinute s).dl = s.dl := by
  unfold enterMinute
  split <;> rfl

/-- A power-on that makes no cold start at once keeps the log (R194, R197). -/
theorem powerOn_dl {kind : StartKind} (warm : kind = .cold → s.pins.resetLow = true) : (powerOn kind s).dl = s.dl := by
  unfold powerOn
  split
  · rfl
  · next high =>
    cases kind with
    | cold => exact absurd (warm rfl) high
    | warm => exact warmStart_dl _ _

/-- A return of RESET that no cold start waits for keeps the log (R197). -/
theorem resetReturns_dl (warm : ¬(s.pins.powered = true ∧ s.pins.startOwed = some .cold)) :
    (resetReturns s).dl = s.dl := by
  unfold resetReturns
  (repeat' split)
  · next powered _ kind owed =>
    cases kind with
    | cold => exact absurd ⟨powered, owed⟩ warm
    | warm => exact warmStart_dl _ _
  · exact warmStart_dl _ _
  · rfl

/-! ## Every command -/

/-- The commands that write the log, but for a cold start: an acknowledgement, and the two that append (R137, R140). -/
def writesLog : Instr → Bool
  | .ackLog .. | .voidFolder .. | .release .. => true
  | _ => false

/-- Every other command leaves the log, unless it makes a cold start. -/
theorem exec_sameLog {i : Instr} (h : exec i s = .next t) (warm : ¬coldStartsAt i s) (other : writesLog i = false) :
    SameLog s t := by
  cases i <;> (simp only [exec] at h; cases h)
  case ackLog | voidFolder | release => exact absurd other (by simp [writesLog])
  -- accounts, profiles, clock
  case openAccount => exact officeCommand_sameLog fun _ _ => openAccountAnswer_dl _ _ _ _ _ _
  case editAccount => exact officeCommand_sameLog fun _ _ => editAccountAnswer_dl _ _ _ _ _ _ _
  case suspendAccount => exact officeCommand_sameLog fun _ t => onAccount_dl fun i => suspendAnswer_dl i t
  case resumeAccount => exact officeCommand_sameLog fun _ t => onAccount_dl fun i => resumeAnswer_dl i t
  case closeAccount => exact officeCommand_sameLog fun _ t => onAccount_dl fun i => closeAnswer_dl i t
  case setStatus => exact officeCommand_sameLog fun _ _ => setStatusAnswer_dl _ _ _ _ _
  case clearLate => exact officeCommand_sameLog fun _ _ => onAccount_dl fun _ => rfl
  case readAccount => exact officeCommand_sameLog fun _ _ => onAccount_dl fun _ => rfl
  case findCard => exact officeCommand_sameLog fun _ _ => by rw [findCardAnswer_state]
  case setProfile => exact officeCommand_sameLog fun _ _ => setProfileAnswer_dl _ _ _ _
  case cancelPendingProfile => exact officeCommand_sameLog fun _ _ => cancelPendingProfileAnswer_dl _ _ _
  case readProfile => exact officeCommand_sameLog fun _ _ => by rw [readProfileAnswer_state]
  case readAllowance => exact officeCommand_sameLog fun _ _ => by rw [readAllowanceAnswer_state]
  case hoursCheck => exact officeCommand_sameLog fun _ _ => by rw [hoursCheckAnswer_state]
  case setTime => exact officeCommandOf_sameLog fun _ _ => .of_dl (setTimeAnswer_dl _ _ _ _)
  case adjustTime => exact officeCommand_sameLog fun _ _ => adjustTimeAnswer_dl _ _ _
  case readTime => exact officeCommand_sameLog fun _ _ => rfl
  case readAlarms => exact officeCommand_sameLog fun _ _ => by rw [readAlarmsAnswer_state]
  -- folders
  case createFolder => exact officeCommand_sameLog fun _ _ => createFolderAnswer_dl _ _ _ _ _ _ _ _ _
  case setCompartment => exact officeCommand_sameLog fun _ _ => setCompartmentAnswer_dl _ _ _ _ _ _ _
  case setPapers => exact officeCommand_sameLog fun _ _ => setPapersAnswer_dl _ _ _ _ _
  case setTrip => exact officeCommand_sameLog fun _ _ => setTripAnswer_dl _ _ _ _ _
  case submit => exact officeCommand_sameLog fun arrival t => onFolderIn_dl fun f => submitOpen_dl arrival f t
  case reopen => exact officeCommand_sameLog fun _ _ => onFolderIn_dl fun _ => rfl
  case assignBay => exact officeCommand_sameLog fun _ _ => assignBayAnswer_dl _ _ _ _
  case unassign => exact officeCommand_sameLog fun _ _ => onFolderIn_dl fun _ => rfl
  case amend => exact officeCommand_sameLog fun _ _ => amendAnswer_dl _ _ _ _ _
  case overrideFolder => exact officeCommand_sameLog fun _ _ => onFolderIn_dl fun _ => rfl
  case finishLoading => exact officeCommand_sameLog fun _ t => onFolderIn_dl fun f => finishHeld_dl f t
  case readFolder => exact officeCommand_sameLog fun _ t => onFolder_dl fun f => readFolderAnswer_dl f t
  case readCompartment => exact officeCommand_sameLog fun _ _ => by rw [readCompartmentAnswer_state]
  case nextFlaggedFolder => exact officeCommand_sameLog fun _ _ => rfl
  -- tables, settings, rights
  case setSubstance => exact officeCommand_sameLog fun _ _ => setSubstanceAnswer_dl _ _ _ _ _ _
  case clearSubstance => exact officeCommand_sameLog fun _ _ => clearSubstanceAnswer_dl _ _ _
  case readSubstance => exact officeCommand_sameLog fun _ _ => by rw [readSubstanceAnswer_state]
  case listSubstances => exact officeCommand_sameLog fun _ _ => by rw [listSubstancesAnswer_state]
  case setMatrixPair => exact officeCommand_sameLog fun _ _ => setMatrixPairAnswer_dl _ _ _ _ _
  case readMatrix => exact officeCommand_sameLog fun _ _ => by rw [readMatrixAnswer_state]
  case setThreshold => exact officeCommand_sameLog fun _ _ => setThresholdAnswer_dl _ _ _ _
  case readThresholds => exact officeCommand_sameLog fun _ _ => rfl
  case setMetering => exact officeCommand_sameLog fun _ _ => setMeteringAnswer_dl _ _ _
  case readMetering => exact officeCommand_sameLog fun _ _ => rfl
  case readLogOldest => exact officeCommand_sameLog fun _ _ => rfl
  case readLog => exact officeCommand_sameLog fun _ _ => by rw [readLogAnswer_state]
  case logStatus => exact officeCommand_sameLog fun _ _ => rfl
  case setLogWarning => exact officeCommandOf_sameLog fun _ _ => setLogWarningAnswer_sameLog _ _ _
  case setRights => exact officeCommand_sameLog fun _ _ => setRightsAnswer_dl _ _ _ _
  case readRights => exact officeCommand_sameLog fun _ _ => rfl
  case readDenials => exact officeCommand_sameLog fun _ _ => rfl
  case setLink => exact officeCommand_sameLog fun _ _ => setLinkAnswer_dl _ _ _ _ _
  case readmitNode => exact officeCommand_sameLog fun _ _ => readmitNodeAnswer_dl _ _ _
  case readLink => exact officeCommand_sameLog fun _ _ => rfl
  -- the port and the modes
  case readReply => exact transaction_sameLog rfl
  case ackAttention => exact officeCommand_sameLog fun _ _ => ackAttentionAnswer_dl _ _ _
  case setEnables => exact officeCommand_sameLog fun _ _ => setEnablesAnswer_dl _ _ _ _
  case readAttention => exact officeCommand_sameLog fun _ _ => rfl
  case nextFlaggedAccount => exact officeCommand_sameLog fun _ _ => rfl
  case requestMode => exact officeCommand_sameLog fun _ _ => requestModeAnswer_dl _ _ _
  case readMode => exact officeCommand_sameLog fun _ _ => rfl
  case clearAll o =>
    rcases officeCommandOf_dl_cases .clearAll (fun _ => officeClass .clearAll) o clearAllAnswer s with same | ⟨admitted, owned⟩
    · exact .of_dl same
    · have refused := clearAllAnswer_dl (s := seen .clearAll o s) (fun config => warm ⟨admitted, config⟩) s.officeArrival
      exact .of_dl (owned.trans refused)
  case unknownCommandCode => exact transaction_sameLog rfl
  case droppedFrame => exact transaction_sameLog rfl
  case busyTransaction => exact transaction_sameLog rfl
  -- the link
  case card => exact requestFrame_sameLog fun arrival t => bayRights_dl fun b => cardAnswer_dl _ _ _ _ b t
  case start => exact windowRequest_sameLog fun _ _ _ _ => startAnswer_dl _ _ _ _ _
  case total => exact windowRequest_sameLog fun _ _ _ _ => totalAnswer_dl _ _ _ _ _ _ _
  case endCompartment => exact windowRequest_sameLog fun _ _ _ _ => endAnswer_dl _ _ _ _ _
  case doneLoading => exact windowRequest_sameLog doneAnswer_dl
  case entry => exact gateRequest_sameLog fun _ _ => entryAnswer_dl _ _ _
  case exit => exact gateRequest_sameLog fun _ _ => exitAnswer_dl _ _ _
  case idle => exact requestFrame_sameLog fun _ _ => rfl
  case malformedFrame => exact goodFrame_sameLog fun _ _ => rfl
  case damagedFrame => exact .of_dl (slotEvent_dl _ _ _)
  case emptySlot => exact .of_dl (slotEvent_dl _ _ _)
  case beacon => exact .of_dl (by split <;> simp)
  -- the clock, starts and power
  case minuteBoundary => exact .of_dl (by split <;> simp [minuteBoundary_dl, enterMinute_dl])
  case dayBoundary => exact .of_dl (by split <;> simp [settleBoundary_dl])
  case clockSecondCount => exact .of_dl (by unfold countSecond; split <;> simp [settleBoundary_dl])
  case coldStart => exact .of_dl (powerOn_dl fun _ => by simpa [coldStartsAt] using warm)
  case warmStart cause =>
    cases cause with
    | power => exact .of_dl (powerOn_dl nofun)
    | reset => exact .of_dl (resetReturns_dl warm)
  case resetAsserted | powerFail => exact ⟨rfl, rfl⟩

/-- ACK LOG leaves the log or acknowledges entries. -/
theorem execAckLog_log {o : OfficeFrame} {sequence : BitVec 32} (h : exec (.ackLog o sequence) s = .next t) :
    SameLog s t ∨ LogAcknowledged s t := by
  cases h
  rcases officeCommandOf_dl_cases .ackLog (fun _ => officeClass .ackLog) o (ackLogAnswer sequence.toNat) s with
    same | ⟨-, owned⟩
  · exact .inl (.of_dl same)
  · exact (ackLogAnswer_log _ _ (seen .ackLog o s)).imp (·.congr rfl owned) (·.congr rfl owned)

/-- VOID leaves the log or appends to it. -/
theorem execVoidFolder_log {o : OfficeFrame} {folder : Byte} (h : exec (.voidFolder o folder) s = .next t) :
    SameLog s t ∨ LogGrown s t := by
  cases h
  rcases officeCommandOf_dl_cases .voidFolder (fun _ => officeClass .voidFolder) o
      (fun arrival => onFolderIn folder openToReady (voidHeld arrival)) s with same | ⟨-, owned⟩
  · exact .inl (.of_dl same)
  · rcases onFolderIn_cases folder openToReady (voidHeld s.officeArrival) (seen .voidFolder o s) with refused | ⟨f, held⟩
    · rw [refused] at owned
      exact .inl (.of_dl owned)
    · rw [held] at owned
      exact (voidHeld_log (s := seen .voidFolder o s) (officeArrival_le s) f).imp (·.congr rfl owned) (·.congr rfl rfl owned)

/-- RELEASE leaves the log or appends to it. -/
theorem execRelease_log {l : LinkFrame} {folder : Byte} {placards : BitVec 16}
    (h : exec (.release l folder placards) s = .next t) : SameLog s t ∨ LogGrown s t := by
  cases h
  rcases requestFrame_dl_cases .release l
      (fun arrival => gateRights .release l.node arrival (releaseAnswer folder placards arrival)) s with same | served
  · exact .inl (.of_dl same)
  · rcases gateRights_cases .release l.node (s.frameArrival l.node) (releaseAnswer folder placards (s.frameArrival l.node))
        (frameTaken l.node s) with denied | owned
    · exact .inl (.of_dl (served.trans (denied.trans (frameTaken_dl s l.node))))
    · have past : s.frameArrival l.node ≤ (frameTaken l.node s).tc.clock := by simpa using frameArrival_le s l.node
      have left := served.trans (congrArg (·.state.dl) owned)
      exact (releaseAnswer_log past folder placards).imp (·.congr (by simp) left) (·.congr (by simp) (by simp) left)

end Sys2Proof.Machine

open Sys2Proof Sys2Proof.Machine in
/-- Settles O18: a command that is none of the log's three writers leaves the log (`exec_sameLog`), and each of the three
leaves it or makes its own write. -/
theorem logGrowsOnlyByReleaseAndVoid : Obligations.LogGrowsOnlyByReleaseAndVoid := by
  intro i s t h warm
  by_cases writer : writesLog i = true
  · unfold writesLog at writer
    split at writer
    · next o sequence =>
      rcases execAckLog_log h with same | ⟨⟨n, left⟩, next⟩
      · exact .inl (same.settled _)
      · obtain ⟨k, dropped⟩ := acknowledged_eq_drop n s.dl.held
        exact .inl ⟨next, fun other => absurd rfl (other o sequence), k, left.trans dropped⟩
    · next o folder =>
      exact (execVoidFolder_log h).imp (·.settled _) fun grown => ⟨grown.next, .inr ⟨o, folder, rfl⟩, grown.held⟩
    · next l folder placards =>
      exact (execRelease_log h).imp (·.settled _) fun grown => ⟨grown.next, .inl ⟨l, folder, placards, rfl⟩, grown.held⟩
    · cases writer
  · exact .inl ((exec_sameLog h warm (by simpa using writer)).settled _)
end

section
/-! PROOFS. The reason set of a release: where each reason of the table stands (R128, R129). -/

namespace Sys2Proof.Machine

variable {s : State} {x : Folder} {confirmed : MemberSet 16} {t : Nat}

/-! ## Each reason at most once -/

theorem ite_singleton_sublist {p : Prop} [Decidable p] (r : Reason) : (if p then [r] else []).Sublist [r] := by
  split
  · exact .refl _
  · exact List.nil_sublist _

theorem hoursTest_reasons_sublist : (hoursTest s x t).reasons.Sublist [.hoursDrive, .hoursCycle] :=
  (ite_singleton_sublist .hoursDrive).append (ite_singleton_sublist .hoursCycle)

/-- The reasons stand in the order of the table (R128). -/
theorem releaseReasons_sublist : (releaseReasons s x confirmed t).Sublist
    [.suspended, .endorsement, .expired, .hoursDrive, .hoursCycle, .placard, .logFull] :=
  (((((ite_singleton_sublist .suspended).append (ite_singleton_sublist .endorsement)).append
    (ite_singleton_sublist .expired)).append hoursTest_reasons_sublist).append
    (ite_singleton_sublist .placard)).append (ite_singleton_sublist .logFull)

theorem releaseReasons_nodup : (releaseReasons s x confirmed t).Nodup := releaseReasons_sublist.nodup (by decide)

/-! ## Where a reason stands -/

/-- The codes tested at a release are those of the compartments with product metered (R129). -/
theorem releaseCodes_eq :
    releaseCodes x = codesWhere (fun _ => true) (x.compartments.filter (fun c => decide (0 < c.metered))) := by
  simp [releaseCodes, codesWhere]

/-- A substance of class 1 to 7 in a compartment with product metered, whose endorsement a release asks for (R129). -/
def ReleaseDemands (s : State) (x : Folder) (e : Substance) : Prop :=
  e.cls.val ≠ 0 ∧ ∃ c ∈ x.compartments, 0 < c.metered ∧ s.product c = some e

theorem metered_demands_iff {p : Substance → Prop} :
    (∃ c ∈ x.compartments.filter (fun c => decide (0 < c.metered)), ∃ e, s.product c = some e ∧ e.cls.val ≠ 0 ∧ p e) ↔
      ∃ e, ReleaseDemands s x e ∧ p e := by
  simp only [List.mem_filter, decide_eq_true_eq]
  constructor
  · rintro ⟨c, ⟨hc, metered⟩, e, product, asked, hp⟩
    exact ⟨e, ⟨asked, c, hc, metered, product⟩, hp⟩
  · rintro ⟨e, ⟨asked, c, hc, metered, product⟩, hp⟩
    exact ⟨c, ⟨hc, metered⟩, e, product, asked, hp⟩

theorem release_endorsement {a : Account} {day : Nat} : (endorsementTest s a (releaseCodes x) day).endorsement = true ↔
    ∃ e, ReleaseDemands s x e ∧ hasMember a.endorsements e.cls.val = false := by
  rw [releaseCodes_eq, endorsementTest_endorsement, metered_demands_iff]

theorem release_expired {a : Account} {day : Nat} : (endorsementTest s a (releaseCodes x) day).expired = true ↔
    (∃ e, ReleaseDemands s x e) ∧ a.expiry < day := by
  rw [releaseCodes_eq, endorsementTest_expired]
  simpa only [and_true] using and_congr_left' (metered_demands_iff (p := fun _ => True))

/-- The drive test compares the sum of the drivers' shift allowances, the cycle test each driver's room (R40). -/
theorem mem_hoursTest_reasons {r : Reason} : r ∈ (hoursTest s x t).reasons ↔
    r = .hoursDrive ∧ (x.drivers.map (fun i => (s.figures i t).shiftAllowance)).sum < x.plannedDrive ∨
    r = .hoursCycle ∧ ∃ i ∈ x.drivers, (s.figures i t).cycleRoom < x.plannedDuty := by
  cases second : x.second <;> simp [hoursTest, Folder.drivers, second, and_comm]

theorem logFull_iff : s.logFull = true ↔ 1024 ≤ s.dl.held.length ∨ s.dl.nextSequence = maxSequence := by
  simp [State.logFull]

theorem mem_releaseReasons {r : Reason} : r ∈ releaseReasons s x confirmed t ↔
    r = .suspended ∧ (∃ i ∈ x.drivers, (s.account i).state ≠ .active) ∨
    r = .endorsement ∧ (∃ i ∈ x.drivers, ∃ e, ReleaseDemands s x e ∧
      hasMember (s.account i).endorsements e.cls.val = false) ∨
    r = .expired ∧ (∃ i ∈ x.drivers, (∃ e, ReleaseDemands s x e) ∧ (s.account i).expiry < s.dayOfMinute t) ∨
    (r = .hoursDrive ∧ (x.drivers.map (fun i => (s.figures i t).shiftAllowance)).sum < x.plannedDrive ∨
      r = .hoursCycle ∧ ∃ i ∈ x.drivers, (s.figures i t).cycleRoom < x.plannedDuty) ∨
    r = .placard ∧ confirmed ≠ s.placardSet Compartment.metered x.compartments ∨
    r = .logFull ∧ (1024 ≤ s.dl.held.length ∨ s.dl.nextSequence = maxSequence) := by
  rw [← mem_hoursTest_reasons, ← logFull_iff]
  simp [releaseReasons, ← release_endorsement (day := s.dayOfMinute t), ← release_expired, and_comm]

/-! ## Records in order -/

/-- A driver of a live folder is ACTIVE or SUSPENDED: a FREE account has no live folder (R3, R65). -/
theorem State.RecordsOk.driver_notActive_iff (h : s.RecordsOk) {f : Fin 16} (live : (s.folder f).state ≠ .free) {i : Fin 64}
    (named : i ∈ (s.folder f).drivers) : (s.account i).state ≠ .active ↔ (s.account i).state = .suspended := by
  have used : (s.account i).state ≠ .free := fun free => by
    have folder := h.folders.named f live i named
    rw [h.accounts.free i free] at folder
    cases folder
  cases state : (s.account i).state <;> simp_all

end Sys2Proof.Machine

open Sys2Proof Sys2Proof.Machine in
/-- Settles O26: the seven tests are appended in the order of the table (`releaseReasons_sublist`), and each reason is read
off its own test (`mem_releaseReasons`). -/
theorem releaseReasonsAreThoseOfTheTable : Obligations.ReleaseReasonsAreThoseOfTheTable := by
  intro s x confirmed t demands reasons
  have table : ∀ r, r ∈ reasons ↔ _ := fun r => mem_releaseReasons
  have suspended : Reason.suspended ∈ reasons ↔ ∃ i ∈ x.drivers, (s.account i).state ≠ .active := by simp [table]
  refine ⟨releaseReasons_nodup, fun r => ?_, fun f records here ready => ?_, fun mark => rfl⟩
  · rw [table]
    cases r <;> simp only [reduceCtorEq, true_and, false_and, or_false, false_or] <;> rfl
  · subst here
    rw [suspended]
    exact exists_congr fun i => and_congr_right fun named => records.driver_notActive_iff (by simp [ready]) named
end

section
/-! PROOFS. ACK LOG, SET RIGHTS and READ RIGHTS at their owners (R140, R151, R152). -/

namespace Sys2Proof.Machine

variable {s : State} {o : OfficeFrame}

/-! ## ACK LOG (R140) -/

/-- Where the numbers rise, the entries from the first one above a number on are exactly the entries above it. -/
theorem acknowledged_eq_filter {held : List LogEntry} (rising : held.Pairwise (fun e x => e.sequence < x.sequence))
    (n : Nat) : acknowledged n held = held.filter (fun e => decide (n < e.sequence)) := by
  induction held with
  | nil => rfl
  | cons e rest ih =>
    obtain ⟨first, later⟩ := List.pairwise_cons.mp rising
    by_cases reached : e.sequence ≤ n
    · rw [acknowledged, List.dropWhile_cons_of_pos (by simpa using reached), List.filter_cons_of_neg (by simpa using reached)]
      exact ih later
    · have above : ∀ x ∈ rest, decide (n < x.sequence) = true := fun x hx => by
        have := first x hx
        simp only [decide_eq_true_eq]
        omega
      rw [acknowledged, List.dropWhile_cons_of_neg (by simpa using reached), List.filter_cons_of_pos (by simpa using reached),
        List.filter_eq_self.mpr above]

theorem ackLog_completes {sequence : BitVec 32} (log : s.LogOk) (h : s.admits o (.grouped .logAck))
    (given : sequence.toNat < s.dl.nextSequence) :
    exec (.ackLog o sequence) s =
      (let left := s.dl.held.filter (fun e => decide (sequence.toNat < e.sequence))
      answersOk .ackLog o (bytes2 (s.dl.held.length - left.length) ++ bytes2 left.length)
        { seen .ackLog o s with dl := { s.dl with held := left } }) := by
  have rising : s.dl.held.Pairwise (fun e x => e.sequence < x.sequence) := InSequence.pairwise log.consecutive
  refine officeCommand_ok h ?_
  rw [ackLogAnswer, seen_dl, if_neg (Nat.not_le.mpr given), acknowledged_eq_filter rising]

/-! ## SET RIGHTS and READ RIGHTS (R151, R152) -/

theorem hasMember_writtenColumn {groups : BitVec 16} {allow : Bool} {column : MemberSet 10} {k : Nat} (hk : k < 10) :
    hasMember (writtenColumn (groups.setWidth 10) allow column) k =
      if hasMember groups k then allow else hasMember column k := by
  unfold writtenColumn hasMember
  cases allow <;> cases named : groups.getLsbD k <;> simp [hk, named]

theorem columnBytes_eq (s : State) :
    columnBytes s = (List.range 10).map (fun k => if hasMember s.rc.allowed k then 1 else 0) :=
  (List.map_eq_flatMap ..).symm

theorem allowOfCode_eq {value : Byte} {allow : Bool} (h : value = if allow then 1 else 0) :
    allowOfCode value = some allow := by
  subst h
  cases allow <;> rfl

theorem setRights_completes {groups : BitVec 16} {value : Byte} {allow : Bool} (h : s.admits o .supervisorOnly)
    (some_group : groups ≠ 0) (groups_only : groups.toNat < 1024) (hv : value = if allow then 1 else 0) :
    exec (.setRights o groups value) s =
      (let column := writtenColumn (groups.setWidth 10) allow s.rc.allowed
      answersOk .setRights o ((List.range 10).map (fun k => if hasMember column k then 1 else 0))
        { seen .setRights o s with rc := { s.rc with allowed := column } }) := by
  have taken : ¬(groups = 0 ∨ groupsOk groups = false) := not_or.mpr ⟨some_group, by simp [groupsOk, groups_only]⟩
  refine officeCommand_ok h ?_
  simp only [setRightsAnswer, allowOfCode_eq hv, if_neg taken, columnBytes_eq, seen_rc]

theorem readRights_completes (h : s.admits o .read) :
    exec (.readRights o) s = answersOk .readRights o (columnBytes s ++ byteOfBool o.skey) (seen .readRights o s) :=
  officeCommand_ok h rfl

end Sys2Proof.Machine

open Sys2Proof Sys2Proof.Machine in
/-- Settles O49: numbers that rise put the acknowledged entries first, and a cell of the written column is read bit by
bit. -/
theorem ackLogAndRightsComplete : Obligations.AckLogAndRightsComplete := by
  intro s o
  refine ⟨fun sequence log h given => ackLog_completes log h given, ?_, fun h => readRights_completes h⟩
  intro groups value allow h some_group groups_only hv
  exact ⟨writtenColumn (groups.setWidth 10) allow s.rc.allowed, fun k hk => hasMember_writtenColumn hk,
    setRights_completes h some_group groups_only hv⟩
end

section
/-! PROOFS. The requests of the gate at their owners, and the entry a granted RELEASE appends (R130 to R137). -/

namespace Sys2Proof.Machine

variable {s : State} {l : LinkFrame}

/-! ## The gate -/

theorem gateRights_gate {k : MessageKind} {n : Fin 9} {arrival : Nat} {owner : State → LinkAnswer} (gate : n = 8) :
    gateRights k n arrival owner s = owner s := by
  subst gate
  rfl

/-- A served request of the gate whose owner replies. -/
theorem gateRequest_replies {k : MessageKind} {owner : Nat → State → LinkAnswer} {body : ReplyBody} {argument : Argument}
    {t : State} (h : s.servesFrame l.node l.moment) (gate : l.node = 8) (hk : (k == .idle) = false)
    (ho : owner (s.frameArrival l.node) (frameTaken l.node s) = replied t body argument) :
    (.next (gateRequest k l owner s) : Host.Outcome State Fault Refusal) = repliesWith k l body argument t :=
  requestFrame_replies h hk ((gateRights_gate gate).trans ho)

theorem entry_completes {number : BitVec 32} {i : Fin 64} (h : s.servesFrame l.node l.moment) (gate : l.node = 8)
    (real : number ≠ 0) (found : s.findCard number.toNat = some i) :
    exec (.entry l number) s = repliesWith .entry l .accept (.account i)
      (changeStatus i .duty (s.frameArrival l.node) (frameTaken l.node s)).state := by
  refine gateRequest_replies h gate rfl ?_
  rw [entryAnswer, if_neg real, findCard_frameTaken, found]

theorem exit_completes {folder : Byte} {f : Fin 16} (h : s.servesFrame l.node l.moment) (gate : l.node = 8)
    (hf : folder.toNat = f.val) (released : (s.folder f).state = .released) :
    exec (.exit l folder) s = repliesWith .exit l .accept (.folder f)
      (freeFolder f (driversLeave (s.folder f) (s.frameArrival l.node) (frameTaken l.node s))) := by
  refine gateRequest_replies h gate rfl ?_
  simp only [exitAnswer, indexOf_some.mpr hf, folder_frameTaken, released, ne_eq, not_true_eq_false, if_false]

/-! ## RELEASE (R128 to R131) -/

/-- The entry of a release at an arrival second (R136). -/
def releaseEntry (s : State) (f : Fin 16) (arrival : Nat) : LogEntry :=
  let x := s.folder f
  { sequence := s.dl.nextSequence
    kind := if x.overrideMark then .dispatchOverride else .dispatch
    time := arrival
    folder := f
    tanker := x.tanker
    primaryCard := (s.account x.primary).card
    secondCard := x.second.bind (fun i => (s.account i).card)
    plannedDrive := x.plannedDrive
    plannedDuty := x.plannedDuty
    sPrimary := some (s.figures x.primary (arrival / 60)).shiftAllowance
    sSecond := x.second.map (fun i => (s.figures i (arrival / 60)).shiftAllowance)
    placards := s.placardSet Compartment.metered x.compartments
    compartments := x.compartments.zipIdx.map (fun p => ⟨p.2, p.1.substance, p.1.declared, p.1.metered, p.1.result⟩) }

/-- An append raises the high-water time to its entry's, and LOG where the log has reached its level (R137). -/
theorem appendEntry_eq (e : LogEntry) (s : State) : appendEntry e s =
    { s with
      dl := { s.dl with held := s.dl.held ++ [e], nextSequence := s.dl.nextSequence + 1 }
      tc := { s.tc with highWater := max s.tc.highWater e.time }
      op := { s.op with flags :=
        if s.dl.level ≤ s.dl.held.length + 1 then withMember s.op.flags AttentionFlag.log.bit else s.op.flags } } := by
  unfold appendEntry
  simp only [State.raiseHighWater, List.length_append, List.length_singleton]
  split <;> rfl

theorem grantRelease_eq (f : Fin 16) (arrival : Nat) (s : State) : grantRelease f arrival s =
    (appendEntry (releaseEntry s f arrival) s).setFolder f
      { s.folder f with state := .released, releaseTime := some arrival } := by
  have shifts : ((hoursTest s (s.folder f) (minuteOf arrival)).second.map Figures.shiftAllowance) =
      (s.folder f).second.map (fun i => (s.figures i (arrival / 60)).shiftAllowance) := Option.map_map ..
  unfold grantRelease
  dsimp only
  rw [shifts]
  cases mark : (s.folder f).overrideMark <;> simp [releaseEntry, entryOf, logCompartments, mark] <;> rfl

theorem release_ready {folder : Byte} {f : Fin 16} {placards : BitVec 16} (arrival : Nat) (hf : folder.toNat = f.val)
    (groups : hasMember placards 0 = false) (ready : (s.folder f).state = .ready) :
    releaseAnswer folder placards arrival s = releaseReady placards arrival f s := by
  simp [releaseAnswer, indexOf_some.mpr hf, placardsOk, groups, ready]

theorem releaseEntry_frameTaken (n : Fin 9) (f : Fin 16) (arrival : Nat) :
    releaseEntry (frameTaken n s) f arrival = releaseEntry s f arrival := by
  simp [releaseEntry]

theorem release_granted {folder : Byte} {f : Fin 16} {placards : BitVec 16} (h : s.servesFrame l.node l.moment)
    (gate : l.node = 8) (hf : folder.toNat = f.val) (groups : hasMember placards 0 = false)
    (ready : (s.folder f).state = .ready)
    (sound : releaseReasons s (s.folder f) placards (s.frameArrival l.node / 60) = []) :
    exec (.release l folder placards) s = repliesWith .release l .grant (.sequence s.dl.nextSequence)
      ((appendEntry (releaseEntry s f (s.frameArrival l.node)) (frameTaken l.node s)).setFolder f
        { s.folder f with state := .released, releaseTime := some (s.frameArrival l.node) }) := by
  refine gateRequest_replies h gate rfl ?_
  rw [release_ready _ hf groups (by simpa using ready)]
  simp only [releaseReady, minuteOf, folder_frameTaken, releaseReasons_frameTaken, sound, if_true, grantRelease_eq,
    releaseEntry_frameTaken, frameTaken_dl]

theorem release_refused {folder : Byte} {f : Fin 16} {placards : BitVec 16} (h : s.servesFrame l.node l.moment)
    (gate : l.node = 8) (hf : folder.toNat = f.val) (groups : hasMember placards 0 = false)
    (ready : (s.folder f).state = .ready)
    (fails : releaseReasons s (s.folder f) placards (s.frameArrival l.node / 60) ≠ []) :
    exec (.release l folder placards) s =
      (let set := reasonSet (releaseReasons s (s.folder f) placards (s.frameArrival l.node / 60))
      repliesWith .release l (.refuse set) (.folderState .ready)
        ((frameTaken l.node s).setFolder f { s.folder f with lastRefusal := set })) := by
  refine gateRequest_replies h gate rfl ?_
  rw [release_ready _ hf groups (by simpa using ready)]
  simp only [releaseReady, minuteOf, folder_frameTaken, releaseReasons_frameTaken, fails, if_false]

end Sys2Proof.Machine

open Sys2Proof Sys2Proof.Machine in
/-- Settles O58: each request reaches its owner in the state `frameTaken`, whose records are those before the frame; the
append is written out by `appendEntry_eq`. -/
theorem gateRequestsComplete : Obligations.GateRequestsComplete := by
  intro s l h gate u arrival
  refine ⟨fun number i real found => entry_completes h gate real found, fun folder f hf => ⟨?_, ?_⟩⟩
  · intro placards groups ready
    refine ⟨fun sound => ?_, fun fails => release_refused h gate hf groups ready fails⟩
    rw [release_granted h gate hf groups ready sound, appendEntry_eq]
    simp only [frameTaken_dl, frameTaken_tc]
    rfl
  · exact fun released => exit_completes h gate hf released
end

section
/-! PROOFS. What a denial leaves: of an office command, and of a taken request by its kind and by its window (R149, R153,
R154, R156, R157). -/

namespace Sys2Proof.Machine

variable {s : State}

/-! ## Office commands (R149, R156) -/

/-- Only the office is denied: a supervisor passes every class (R149). -/
theorem skey_false_of_not_passes {o : OfficeFrame} {cls : CommandClass} (fails : officePasses s o cls = false) :
    o.skey = false := by
  cases cls with
  | grouped g => exact (Bool.or_eq_false_iff.mp fails).1
  | supervisorOnly => exact fails
  | _ => cases fails

/-- Every office command but READ REPLY reaches an owner through the Rights Check of its class (R148, R177). -/
theorem exec_eq_officeCommandOf {i : Instr} {o : OfficeFrame} {c : OfficeCommand} (h : isOffice i o c)
    (served : c ≠ .readReply) :
    ∃ owner, exec i s = .next (officeCommandOf c (fun t => classIn t i) o owner s) := by
  obtain ⟨args, parts⟩ := h
  cases i <;> cases parts
  case readReply => exact absurd rfl served
  all_goals exact ⟨_, rfl⟩

/-- READ REPLY is a read, which every role may send. -/
theorem readReply_passes {i : Instr} {o : OfficeFrame} (h : isOffice i o .readReply) :
    officePasses s o (classIn s i) = true := by
  obtain ⟨args, parts⟩ := h
  cases i <;> cases parts
  rfl

theorem office_denied {i : Instr} {o : OfficeFrame} {c : OfficeCommand} (h : isOffice i o c) (handled : s.handles o)
    (fails : officePasses s o (classIn s i) = false) :
    exec i s = .next (recordDenial ⟨.office, none, .office c, (classIn s i).group, .deniedRole, none, s.officeArrival⟩
      (replyHeld c o (some .deniedRole) [] (seen c o s))) := by
  have served : c ≠ .readReply := by
    rintro rfl
    exact absurd (readReply_passes (s := s) h) (by simp [fails])
  have role : roleOf o = .office := by simp [roleOf, skey_false_of_not_passes fails]
  obtain ⟨owner, reached⟩ := exec_eq_officeCommandOf (s := s) h served
  rw [reached, officeCommandOf_denied handled fails, role]

/-! ## The wrappers of a request's kind (R153, R154) -/

variable {i : Instr} {l : LinkFrame} {k : MessageKind} {fields : List Byte}

theorem exec_eq_gateRequest (parts : linkParts i = some (l, k, fields)) (kind : k = .entry ∨ k = .release ∨ k = .exit) :
    ∃ owner, exec i s = .next (gateRequest k l owner s) := by
  cases i <;> cases parts
  case entry | release | exit => exact ⟨_, rfl⟩
  all_goals exact absurd kind (by decide)

theorem exec_eq_bayRequest (parts : linkParts i = some (l, k, fields))
    (kind : k = .card ∨ k = .start ∨ k = .total ∨ k = .ending ∨ k = .done) :
    ∃ owner, exec i s = .next (bayRequest k l owner s) := by
  cases i <;> cases parts
  case card | start | total | endCompartment | doneLoading => exact ⟨_, rfl⟩
  all_goals exact absurd kind (by decide)

/-- The folder number a request with a window carries is its first field (R154). -/
theorem exec_eq_windowRequest {number : Byte} {rest : List Byte} (parts : linkParts i = some (l, k, number :: rest))
    (kind : k = .start ∨ k = .total ∨ k = .ending ∨ k = .done) :
    ∃ owner, exec i s = .next (windowRequest k l number owner s) := by
  cases i <;> cases parts
  case start | total | endCompartment | doneLoading => exact ⟨_, rfl⟩
  all_goals exact absurd kind (by decide)

/-! ## Denied requests (R156, R157) -/

theorem roleOfNode_bay {n : Fin 9} {b : Fin 8} (bay : bayOfNode n = some b) : roleOfNode n = .bay b := by
  rw [roleOfNode, bay]

/-- A served request whose rights answer with a denial leaves that denial alone. -/
theorem requestFrame_denied {serve : Nat → State → LinkAnswer} {reason : Reason} {argument : Argument}
    {named : Option Byte} (h : s.servesFrame l.node l.moment) (kind : k ≠ .idle)
    (denied : serve (s.frameArrival l.node) (frameTaken l.node s)
      = linkDenial k l.node reason argument named (s.frameArrival l.node) (frameTaken l.node s)) :
    (.next (requestFrame k l serve s) : Host.Outcome State Fault Refusal)
      = deniesRequest k l (roleOfNode l.node) reason argument named s := by
  unfold requestFrame
  rw [beq_false_of_ne kind, goodFrame_served h, denied]
  rfl

/-- A bay sends a kind of the gate's (R153). -/
theorem gateRequest_denied {owner : Nat → State → LinkAnswer} {b : Fin 8} (h : s.servesFrame l.node l.moment)
    (kind : k ≠ .idle) (bay : bayOfNode l.node = some b) :
    (.next (gateRequest k l owner s) : Host.Outcome State Fault Refusal)
      = deniesRequest k l (.bay b) .deniedRole .none none s := by
  rw [← roleOfNode_bay bay]
  exact requestFrame_denied h kind (by simp only [gateRights, bay])

/-- The gate sends a kind of the bays' (R153). -/
theorem bayRequest_denied {owner : Nat → Fin 8 → State → LinkAnswer} (h : s.servesFrame l.node l.moment)
    (kind : k ≠ .idle) (gate : l.node = 8) :
    (.next (bayRequest k l owner s) : Host.Outcome State Fault Refusal)
      = deniesRequest k l .gate .deniedRole .none none s := by
  have noBay : bayOfNode l.node = none := by rw [gate]; rfl
  have role : roleOfNode l.node = .gate := by rw [gate]; rfl
  rw [← role]
  exact requestFrame_denied h kind (by simp only [bayRights, noBay])

/-- A bay sends a kind of its own that is denied there. -/
theorem bayRequest_denied_of_bay {owner : Nat → Fin 8 → State → LinkAnswer} {reason : Reason} {argument : Argument}
    {named : Option Byte} {b : Fin 8} (h : s.servesFrame l.node l.moment) (kind : k ≠ .idle)
    (bay : bayOfNode l.node = some b)
    (denied : owner (s.frameArrival l.node) b (frameTaken l.node s)
      = linkDenial k l.node reason argument named (s.frameArrival l.node) (frameTaken l.node s)) :
    (.next (bayRequest k l owner s) : Host.Outcome State Fault Refusal)
      = deniesRequest k l (.bay b) reason argument named s := by
  rw [← roleOfNode_bay bay]
  exact requestFrame_denied h kind (by simp only [bayRights, bay, denied])

/-- A bay that holds no folder names one (R154). -/
theorem windowRequest_denied_noFolder {number : Byte} {owner : Nat → Fin 8 → Fin 16 → State → LinkAnswer} {b : Fin 8}
    (h : s.servesFrame l.node l.moment) (kind : k ≠ .idle) (bay : bayOfNode l.node = some b)
    (held : s.folderOfBay b = none) :
    (.next (windowRequest k l number owner s) : Host.Outcome State Fault Refusal)
      = deniesRequest k l (.bay b) .deniedWindow .none (some number) s :=
  bayRequest_denied_of_bay h kind bay (by simp only [windowed, folderOfBay_frameTaken, held])

/-- A bay names another folder than its own (R154). -/
theorem windowRequest_denied_otherFolder {number : Byte} {owner : Nat → Fin 8 → Fin 16 → State → LinkAnswer} {b : Fin 8}
    {f : Fin 16} (h : s.servesFrame l.node l.moment) (kind : k ≠ .idle) (bay : bayOfNode l.node = some b)
    (held : s.folderOfBay b = some f) (other : number.toNat ≠ f.val) :
    (.next (windowRequest k l number owner s) : Host.Outcome State Fault Refusal)
      = deniesRequest k l (.bay b) .deniedWindow (.folder f) (some number) s :=
  bayRequest_denied_of_bay h kind bay (by simp only [windowed, folderOfBay_frameTaken, held, if_neg other.symm])

/-! ## The folder of a bay -/

theorem folderOfBay_eq_none {b : Fin 8} (h : ∀ f, (s.folder f).bay ≠ some b) : s.folderOfBay b = none :=
  lowest_none.mpr fun f => beq_false_of_ne (h f)

theorem folderOfBay_eq_some {b : Fin 8} {f : Fin 16} (holds : (s.folder f).bay = some b)
    (lower : ∀ g, g < f → (s.folder g).bay ≠ some b) : s.folderOfBay b = some f :=
  lowest_eq_some.mpr ⟨beq_iff_eq.mpr holds, fun g hg => beq_false_of_ne (lower g hg)⟩

end Sys2Proof.Machine

open Sys2Proof Sys2Proof.Machine in
/-- Settles O7: each command or request is brought to the wrapper of its rights (`exec_eq_…`), and each wrapper's denial is
the state the statement writes out. -/
theorem deniedCommandOnlyLeavesItsDenial : Obligations.DeniedCommandOnlyLeavesItsDenial := by
  refine ⟨fun i o c s h handled fails => ⟨skey_false_of_not_passes fails, office_denied h handled fails⟩, ?_⟩
  intro i l k fields s parts h
  refine ⟨fun b bay => ⟨fun kind => ?_, fun kind number rest named => ?_⟩, fun gate kind => ?_⟩
  · obtain ⟨owner, reached⟩ := exec_eq_gateRequest (s := s) parts kind
    rw [reached]
    exact gateRequest_denied h (by rintro rfl; simp at kind) bay
  · subst named
    obtain ⟨owner, reached⟩ := exec_eq_windowRequest (s := s) parts kind
    have request : k ≠ .idle := by rintro rfl; simp at kind
    rw [reached]
    exact ⟨fun none => windowRequest_denied_noFolder h request bay (folderOfBay_eq_none none),
      fun f holds lower other =>
        windowRequest_denied_otherFolder h request bay (folderOfBay_eq_some holds lower) other⟩
  · obtain ⟨owner, reached⟩ := exec_eq_bayRequest (s := s) parts kind
    rw [reached]
    exact bayRequest_denied h (by rintro rfl; simp at kind) gate
end

section
/-! PROOFS. Which commands write the link's own records: every other command's owner leaves the node table, the reply queue
and the link settings as they are. -/

namespace Sys2Proof.Machine

variable {s t : State}

/-! ## Office commands -/

theorem transaction_rlc {m : OfficeMoment} {n : Nat} {handle : State → State} (h : (handle s).rlc = s.rlc) :
    (transaction m n handle s).rlc = s.rlc := by
  rcases transaction_cases m n handle s with e | ⟨_, _, _, _, e⟩ | e
  · rw [e]
  · rw [e, portMoved_rlc]
  · rw [e, h]

theorem officeCommandOf_rlc {c : OfficeCommand} {cls : State → CommandClass} {o : OfficeFrame}
    {owner : Nat → State → Answer} (h : ∀ arrival t, (owner arrival t).state.rlc = t.rlc) :
    (officeCommandOf c cls o owner s).rlc = s.rlc :=
  officeCommandOf_keeps (·.rlc = s.rlc) rfl (fun _ _ _ _ => rfl) (fun _ _ kept => kept) (fun _ _ kept => kept)
    fun arrival t kept => (h arrival t).trans kept

theorem officeCommand_rlc {c : OfficeCommand} {o : OfficeFrame} {owner : Nat → State → Answer}
    (h : ∀ arrival t, (owner arrival t).state.rlc = t.rlc) : (officeCommand c o owner s).rlc = s.rlc :=
  officeCommandOf_rlc h

/-- A read leaves every record, the link's among them. -/
theorem officeCommand_read_rlc {c : OfficeCommand} {o : OfficeFrame} {owner : Nat → State → Answer}
    (h : ∀ arrival t, (owner arrival t).state = t) : (officeCommand c o owner s).rlc = s.rlc :=
  officeCommand_rlc fun arrival t => congrArg State.rlc (h arrival t)

theorem onAccount_rlc {index : Byte} {act : Fin 64 → State → Answer} (h : ∀ i, (act i s).state.rlc = s.rlc) :
    (onAccount index act s).state.rlc = s.rlc := by
  unfold onAccount
  (repeat' split)
  · rfl
  · rfl
  · exact h _

theorem onFolder_rlc {folder : Byte} {act : Fin 16 → State → Answer} (h : ∀ f, (act f s).state.rlc = s.rlc) :
    (onFolder folder act s).state.rlc = s.rlc := by
  unfold onFolder
  split
  · rfl
  · exact h _

theorem onFolderIn_rlc {folder : Byte} {states : List FolderState} {act : Fin 16 → State → Answer}
    (h : ∀ f, (act f s).state.rlc = s.rlc) : (onFolderIn folder states act s).state.rlc = s.rlc := by
  rcases onFolderIn_cases folder states act s with refused | ⟨f, held⟩
  · rw [refused]
  · rw [held, h]

theorem inConfig_rlc {act : State → Answer} (h : (act s).state.rlc = s.rlc) : (inConfig act s).state.rlc = s.rlc := by
  unfold inConfig
  split
  · exact h
  · rfl

/-! ## The owners of accounts, profiles and clock -/

theorem openAccountAnswer_rlc (card : BitVec 32) (p e : Byte) (x : BitVec 16) (arrival : Nat) (s : State) :
    (openAccountAnswer card p e x arrival s).state.rlc = s.rlc := by
  unfold openAccountAnswer
  (repeat' split) <;> simp

theorem editAccountAnswer_rlc (index : Byte) (card : BitVec 32) (p e : Byte) (x : BitVec 16) (arrival : Nat) (s : State) :
    (editAccountAnswer index card p e x arrival s).state.rlc = s.rlc := by
  unfold editAccountAnswer
  (repeat' split) <;> simp

theorem suspendAnswer_rlc (i : Fin 64) (s : State) : (suspendAnswer i s).state.rlc = s.rlc := by
  unfold suspendAnswer
  split <;> rfl

theorem resumeAnswer_rlc (i : Fin 64) (s : State) : (resumeAnswer i s).state.rlc = s.rlc := by
  unfold resumeAnswer
  split <;> simp

theorem closeAnswer_rlc (i : Fin 64) (s : State) : (closeAnswer i s).state.rlc = s.rlc := by
  unfold closeAnswer
  split <;> simp

theorem setStatusAnswer_rlc (index status : Byte) (time : BitVec 32) (arrival : Nat) (s : State) :
    (setStatusAnswer index status time arrival s).state.rlc = s.rlc := by
  unfold setStatusAnswer
  split
  · dsimp only
    split <;> simp
  · rfl

theorem setProfileAnswer_rlc (letter : Byte) (l : Limits) (arrival : Nat) (s : State) :
    (setProfileAnswer letter l arrival s).state.rlc = s.rlc := by
  unfold setProfileAnswer writeProfile
  (repeat' split) <;> simp

theorem cancelPendingProfileAnswer_rlc (letter : Byte) (arrival : Nat) (s : State) :
    (cancelPendingProfileAnswer letter arrival s).state.rlc = s.rlc := by
  unfold cancelPendingProfileAnswer
  (repeat' split) <;> simp

theorem setTimeAnswer_rlc (value offset arrival : Nat) (s : State) :
    (setTimeAnswer value offset arrival s).state.rlc = s.rlc := by
  unfold setTimeAnswer
  (repeat' split) <;> simp

theorem adjustTimeAnswer_rlc (seconds arrival : Nat) (s : State) :
    (adjustTimeAnswer seconds arrival s).state.rlc = s.rlc := by
  unfold adjustTimeAnswer
  split <;> simp

/-! ## The owners of folders -/

theorem createFolderAnswer_rlc (tanker : BitVec 32) (primary second : Byte) (drive duty : BitVec 16) (count : Byte)
    (slots : Vector (BitVec 16) 6) (arrival : Nat) (s : State) :
    (createFolderAnswer tanker primary second drive duty count slots arrival s).state.rlc = s.rlc := by
  unfold createFolderAnswer createChecked
  (repeat' split) <;> simp

theorem setCompartmentAnswer_rlc (folder compartment : Byte) (capacity substance declared : BitVec 16) (arrival : Nat)
    (s : State) : (setCompartmentAnswer folder compartment capacity substance declared arrival s).state.rlc = s.rlc := by
  refine onFolder_rlc fun f => ?_
  (repeat' split) <;> rfl

theorem setPapersAnswer_rlc (folder count : Byte) (slots : Vector (BitVec 16 × Byte) 6) (arrival : Nat) (s : State) :
    (setPapersAnswer folder count slots arrival s).state.rlc = s.rlc := by
  refine onFolder_rlc fun f => ?_
  dsimp only
  (repeat' split) <;> rfl

theorem setTripAnswer_rlc (folder : Byte) (drive duty : BitVec 16) (arrival : Nat) (s : State) :
    (setTripAnswer folder drive duty arrival s).state.rlc = s.rlc := by
  unfold setTripAnswer
  split
  · rfl
  · exact onFolderIn_rlc fun f => rfl

theorem submitOpen_rlc (arrival : Nat) (f : Fin 16) (s : State) : (submitOpen arrival f s).state.rlc = s.rlc := by
  unfold submitOpen
  dsimp only
  split <;> rfl

theorem assignBayAnswer_rlc (folder bay : Byte) (arrival : Nat) (s : State) :
    (assignBayAnswer folder bay arrival s).state.rlc = s.rlc := by
  unfold assignBayAnswer
  (repeat' split) <;> rfl

theorem amendAnswer_rlc (folder compartment : Byte) (declared : BitVec 16) (arrival : Nat) (s : State) :
    (amendAnswer folder compartment declared arrival s).state.rlc = s.rlc := by
  refine onFolder_rlc fun f => ?_
  (repeat' split) <;> rfl

theorem voidHeld_rlc (arrival : Nat) (f : Fin 16) (s : State) : (voidHeld arrival f s).state.rlc = s.rlc := by
  unfold voidHeld
  dsimp only
  (repeat' split) <;> simp

theorem finishHeld_rlc (f : Fin 16) (s : State) : (finishHeld f s).state.rlc = s.rlc := by
  simp [finishHeld]

theorem readFolderAnswer_rlc (f : Fin 16) (s : State) : (readFolderAnswer f s).state.rlc = s.rlc := by
  unfold readFolderAnswer
  split <;> rfl

/-! ## The owners of tables, settings, rights, port and modes -/

theorem setSubstanceAnswer_rlc (code : BitVec 16) (group cls : Byte) (fill : BitVec 16) (arrival : Nat) (s : State) :
    (setSubstanceAnswer code group cls fill arrival s).state.rlc = s.rlc := by
  refine inConfig_rlc ?_
  unfold writeSubstance
  dsimp only
  (repeat' split) <;> rfl

theorem clearSubstanceAnswer_rlc (code : BitVec 16) (arrival : Nat) (s : State) :
    (clearSubstanceAnswer code arrival s).state.rlc = s.rlc := by
  refine inConfig_rlc ?_
  (repeat' split) <;> rfl

theorem setMatrixPairAnswer_rlc (g h ruling : Byte) (arrival : Nat) (s : State) :
    (setMatrixPairAnswer g h ruling arrival s).state.rlc = s.rlc := by
  refine inConfig_rlc ?_
  unfold writePair
  (repeat' split) <;> simp

theorem setThresholdAnswer_rlc (group : Byte) (quantity : BitVec 16) (arrival : Nat) (s : State) :
    (setThresholdAnswer group quantity arrival s).state.rlc = s.rlc := by
  refine inConfig_rlc ?_
  (repeat' split) <;> rfl

theorem setMeteringAnswer_rlc (m : MeterSettings) (arrival : Nat) (s : State) :
    (setMeteringAnswer m arrival s).state.rlc = s.rlc := by
  refine inConfig_rlc ?_
  split <;> rfl

theorem setLogWarningAnswer_rlc (level : BitVec 16) (arrival : Nat) (s : State) :
    (setLogWarningAnswer level arrival s).state.rlc = s.rlc := by
  refine inConfig_rlc ?_
  split <;> rfl

theorem ackLogAnswer_rlc (n arrival : Nat) (s : State) : (ackLogAnswer n arrival s).state.rlc = s.rlc := by
  unfold ackLogAnswer
  split <;> rfl

theorem setRightsAnswer_rlc (groups : BitVec 16) (value : Byte) (arrival : Nat) (s : State) :
    (setRightsAnswer groups value arrival s).state.rlc = s.rlc := by
  unfold setRightsAnswer
  (repeat' split) <;> rfl

theorem ackAttentionAnswer_rlc (flags : BitVec 16) (arrival : Nat) (s : State) :
    (ackAttentionAnswer flags arrival s).state.rlc = s.rlc := by
  unfold ackAttentionAnswer
  split <;> rfl

theorem setEnablesAnswer_rlc (mask value : BitVec 16) (arrival : Nat) (s : State) :
    (setEnablesAnswer mask value arrival s).state.rlc = s.rlc := by
  unfold setEnablesAnswer
  split <;> rfl

/-- A mode request writes the mode or the pending target alone (R188). -/
theorem requestedMode_rlc {m : Mode} (ht : requestedMode m s = some t) : t.rlc = s.rlc := by
  unfold requestedMode at ht
  (repeat' split at ht) <;> cases ht <;> rfl

theorem requestModeAnswer_rlc (target : Byte) (arrival : Nat) (s : State) :
    (requestModeAnswer target arrival s).state.rlc = s.rlc := by
  unfold requestModeAnswer
  (repeat' split)
  · rfl
  · rfl
  · next requested => exact requestedMode_rlc requested

/-! ## The clock -/

theorem settleBoundary_rlc (s : State) : (settleBoundary s).rlc = s.rlc := by
  unfold settleBoundary
  split <;> simp

theorem enterMinute_rlc (s : State) : (enterMinute s).rlc = s.rlc := by
  unfold enterMinute
  split <;> rfl

theorem minuteBoundary_rlc (s : State) : (minuteBoundary s).rlc = s.rlc := by
  unfold minuteBoundary
  (repeat' split) <;> simp [enterMinute_rlc]

theorem countSecond_rlc (s : State) : (countSecond s).rlc = s.rlc := rfl

/-! ## Every command -/

/-- The commands that may write the link's own records: SET LINK and READMIT NODE, what a slot holds, the beacon, and those
that make a start (R160 to R171, R195 to R197). -/
def writesLink : Instr → Bool
  | .setLink .. | .readmitNode .. | .card .. | .start .. | .total .. | .endCompartment .. | .doneLoading .. | .entry ..
  | .release .. | .exit .. | .idle .. | .malformedFrame .. | .damagedFrame .. | .emptySlot .. | .beacon | .clearAll ..
  | .coldStart | .warmStart .. => true
  | _ => false

/-- Every other command leaves them. -/
theorem exec_rlc {i : Instr} (h : exec i s = .next t) (other : writesLink i = false) : t.rlc = s.rlc := by
  cases i <;> (simp only [exec] at h; cases h)
  case setLink | readmitNode | card | start | total | endCompartment | doneLoading | entry | release | exit | idle
    | malformedFrame | damagedFrame | emptySlot | beacon | clearAll | coldStart | warmStart =>
    exact absurd other (by simp [writesLink])
  -- accounts, profiles, clock
  case openAccount => exact officeCommand_rlc fun _ _ => openAccountAnswer_rlc _ _ _ _ _ _
  case editAccount => exact officeCommand_rlc fun _ _ => editAccountAnswer_rlc _ _ _ _ _ _ _
  case suspendAccount => exact officeCommand_rlc fun _ t => onAccount_rlc fun i => suspendAnswer_rlc i t
  case resumeAccount => exact officeCommand_rlc fun _ t => onAccount_rlc fun i => resumeAnswer_rlc i t
  case closeAccount => exact officeCommand_rlc fun _ t => onAccount_rlc fun i => closeAnswer_rlc i t
  case setStatus => exact officeCommand_rlc fun _ _ => setStatusAnswer_rlc _ _ _ _ _
  case clearLate | readAccount => exact officeCommand_rlc fun _ _ => onAccount_rlc fun _ => rfl
  case findCard => exact officeCommand_read_rlc (findCardAnswer_state _)
  case setProfile => exact officeCommand_rlc fun _ _ => setProfileAnswer_rlc _ _ _ _
  case cancelPendingProfile => exact officeCommand_rlc fun _ _ => cancelPendingProfileAnswer_rlc _ _ _
  case readProfile => exact officeCommand_read_rlc (readProfileAnswer_state _)
  case readAllowance => exact officeCommand_read_rlc (readAllowanceAnswer_state _)
  case hoursCheck => exact officeCommand_read_rlc (hoursCheckAnswer_state _)
  case setTime => exact officeCommandOf_rlc fun _ _ => setTimeAnswer_rlc _ _ _ _
  case adjustTime => exact officeCommand_rlc fun _ _ => adjustTimeAnswer_rlc _ _ _
  case readAlarms => exact officeCommand_read_rlc (readAlarmsAnswer_state _)
  -- folders
  case createFolder => exact officeCommand_rlc fun _ _ => createFolderAnswer_rlc _ _ _ _ _ _ _ _ _
  case setCompartment => exact officeCommand_rlc fun _ _ => setCompartmentAnswer_rlc _ _ _ _ _ _ _
  case setPapers => exact officeCommand_rlc fun _ _ => setPapersAnswer_rlc _ _ _ _ _
  case setTrip => exact officeCommand_rlc fun _ _ => setTripAnswer_rlc _ _ _ _ _
  case submit => exact officeCommand_rlc fun arrival t => onFolderIn_rlc fun f => submitOpen_rlc arrival f t
  case reopen | unassign | overrideFolder => exact officeCommand_rlc fun _ _ => onFolderIn_rlc fun _ => rfl
  case assignBay => exact officeCommand_rlc fun _ _ => assignBayAnswer_rlc _ _ _ _
  case amend => exact officeCommand_rlc fun _ _ => amendAnswer_rlc _ _ _ _ _
  case voidFolder => exact officeCommand_rlc fun arrival t => onFolderIn_rlc fun f => voidHeld_rlc arrival f t
  case finishLoading => exact officeCommand_rlc fun _ t => onFolderIn_rlc fun f => finishHeld_rlc f t
  case readFolder => exact officeCommand_rlc fun _ t => onFolder_rlc fun f => readFolderAnswer_rlc f t
  case readCompartment => exact officeCommand_read_rlc (readCompartmentAnswer_state _ _)
  -- tables, settings, rights
  case setSubstance => exact officeCommand_rlc fun _ _ => setSubstanceAnswer_rlc _ _ _ _ _ _
  case clearSubstance => exact officeCommand_rlc fun _ _ => clearSubstanceAnswer_rlc _ _ _
  case readSubstance => exact officeCommand_read_rlc (readSubstanceAnswer_state _)
  case listSubstances => exact officeCommand_read_rlc (listSubstancesAnswer_state _)
  case setMatrixPair => exact officeCommand_rlc fun _ _ => setMatrixPairAnswer_rlc _ _ _ _ _
  case readMatrix => exact officeCommand_read_rlc (readMatrixAnswer_state _)
  case setThreshold => exact officeCommand_rlc fun _ _ => setThresholdAnswer_rlc _ _ _ _
  case setMetering => exact officeCommand_rlc fun _ _ => setMeteringAnswer_rlc _ _ _
  case readLog => exact officeCommand_read_rlc (readLogAnswer_state _)
  case ackLog => exact officeCommand_rlc fun _ _ => ackLogAnswer_rlc _ _ _
  case setLogWarning => exact officeCommand_rlc fun _ _ => setLogWarningAnswer_rlc _ _ _
  case setRights => exact officeCommand_rlc fun _ _ => setRightsAnswer_rlc _ _ _ _
  -- the port and the modes
  case ackAttention => exact officeCommand_rlc fun _ _ => ackAttentionAnswer_rlc _ _ _
  case setEnables => exact officeCommand_rlc fun _ _ => setEnablesAnswer_rlc _ _ _ _
  case requestMode => exact officeCommand_rlc fun _ _ => requestModeAnswer_rlc _ _ _
  case readReply | unknownCommandCode | droppedFrame | busyTransaction => exact transaction_rlc rfl
  case readTime | nextFlaggedFolder | readThresholds | readMetering | readLogOldest | logStatus | readRights | readDenials
    | readLink | readAttention | nextFlaggedAccount | readMode => exact officeCommand_read_rlc fun _ _ => rfl
  -- the clock and power
  case minuteBoundary => split <;> simp [minuteBoundary_rlc, enterMinute_rlc]
  case dayBoundary => split <;> simp [settleBoundary_rlc]
  case clockSecondCount => split <;> simp [countSecond_rlc, settleBoundary_rlc]
  case resetAsserted | powerFail => rfl

end Sys2Proof.Machine
end

section
/-! PROOFS. The node table and the reply queue in order: node health keeps each entry in range (R162 to R165), joining and
carrying keep the queue in class order (R170, R171), and a place reserved for a frame is taken or given up in the same event
(R169). -/

namespace Sys2Proof.Machine

variable {s t : State}

/-! ## Node entries (R162 to R165) -/

theorem NodeEntry.start_ok (limit : Nat) : NodeEntry.start.Ok limit := ⟨by decide, by decide, Nat.zero_le _⟩

/-- A node that is not ISOLATED has a fault count below 255. -/
theorem NodeEntry.Ok.faults_lt {limit : Nat} {e : NodeEntry} (h : e.Ok limit) (listens : e.state ≠ .isolated) :
    e.faults < 255 :=
  Nat.lt_of_le_of_ne h.faults (mt h.isolated.mpr listens)

theorem NodeEntry.Ok.goodFrame {limit : Nat} {e : NodeEntry} (h : e.Ok limit) (listens : e.state ≠ .isolated)
    (arrival : Nat) : (goodFrameEntry arrival e).Ok limit := by
  have below := h.faults_lt listens
  have state : (goodFrameEntry arrival e).state ≠ .isolated := by
    rcases goodFrameEntry_state_ne arrival e listens with present | warning
    · simp [present]
    · simp [warning]
  have faults : (goodFrameEntry arrival e).faults = e.faults - 1 := rfl
  exact ⟨by omega, iff_of_false state (by omega), Nat.zero_le _⟩

theorem NodeEntry.Ok.damagedFrame {limit : Nat} {e : NodeEntry} (h : e.Ok limit) (listens : e.state ≠ .isolated) :
    (damagedFrameEntry e).Ok limit := by
  refine ⟨?_, ?_, h.silence⟩
  · exact Nat.min_le_left ..
  · unfold damagedFrameEntry
    dsimp only
    split
    · next full => exact iff_of_true rfl full
    · next short =>
      refine iff_of_false ?_ short
      split
      · split <;> simp
      · split <;> simp
      · exact listens

theorem NodeEntry.Ok.emptySlot {limit : Nat} {e : NodeEntry} (h : e.Ok limit) (listens : e.state ≠ .isolated) :
    (emptySlotEntry limit e).Ok limit := by
  have below := h.faults_lt listens
  have silence := h.silence
  have state : (emptySlotEntry limit e).state ≠ .isolated := by
    unfold emptySlotEntry
    dsimp only
    generalize (if e.silence = limit then e.silence else e.silence + 1) = silence
    split
    · simp
    · exact listens
  have faults : (emptySlotEntry limit e).faults = e.faults := rfl
  refine ⟨by omega, iff_of_false state (by omega), ?_⟩
  unfold emptySlotEntry
  dsimp only
  split <;> omega

theorem NodeEntry.Ok.linked {limit : Nat} {e : NodeEntry} (h : e.Ok limit) (limit' : Nat) (moves : Bool) :
    (linkedEntry moves limit' e).Ok limit' := by
  unfold linkedEntry
  split
  · exact start_ok limit'
  · exact ⟨h.faults, h.isolated, Nat.min_le_right ..⟩

/-! ## The reply queue (R170) -/

theorem length_joinQueue (r : ReplyRecord) (queue : List ReplyRecord) :
    (joinQueue r queue).length = queue.length + 1 := by
  induction queue with
  | nil => rfl
  | cons x rest ih =>
    unfold joinQueue
    split
    · rfl
    · rw [List.length_cons, ih, List.length_cons]

theorem mem_joinQueue {r x : ReplyRecord} {queue : List ReplyRecord} (h : x ∈ joinQueue r queue) : x = r ∨ x ∈ queue := by
  induction queue with
  | nil => exact .inl (List.mem_singleton.mp h)
  | cons y rest ih =>
    unfold joinQueue at h
    split at h
    · exact List.mem_cons.mp h
    · rcases List.mem_cons.mp h with head | later
      · exact .inr (head ▸ List.mem_cons_self)
      · exact (ih later).imp_right (List.mem_cons_of_mem y)

theorem joinQueue_classOrder (r : ReplyRecord) {queue : List ReplyRecord}
    (h : queue.Pairwise (fun x y => x.cls.rank ≤ y.cls.rank)) :
    (joinQueue r queue).Pairwise (fun x y => x.cls.rank ≤ y.cls.rank) := by
  induction queue with
  | nil => exact List.pairwise_singleton _ r
  | cons x rest ih =>
    obtain ⟨first, ordered⟩ := List.pairwise_cons.mp h
    unfold joinQueue
    split
    · next earlier =>
      refine List.pairwise_cons.mpr ⟨fun y hy => ?_, h⟩
      rcases List.mem_cons.mp hy with rfl | later
      · omega
      · exact Nat.le_trans (Nat.le_of_lt earlier) (first y later)
    · next behind =>
      refine List.pairwise_cons.mpr ⟨fun y hy => ?_, ih ordered⟩
      rcases mem_joinQueue hy with rfl | later
      · omega
      · exact first y later

/-! ## Writes of the link's records -/

/-- Where the node table and its settings stay, the queue's order and room and the places reserved are left to show. -/
theorem State.LinkOk.queued (h : s.LinkOk) (nodes : t.rlc.nodes = s.rlc.nodes)
    (limit : t.rlc.silenceLimit = s.rlc.silenceLimit) (enrolled : t.rlc.enrolled = s.rlc.enrolled)
    (order : t.rlc.queue.Pairwise (fun x y => x.cls.rank ≤ y.cls.rank)) (room : t.rlc.queue.length ≤ 16)
    (reserved : t.rlc.reserved = 0) : t.LinkOk := by
  have node : ∀ n, t.node n = s.node n := fun n => by rw [State.node, nodes, State.node]
  exact ⟨fun n => by rw [node, limit]; exact h.nodes n, fun n => by rw [node, enrolled]; exact h.notEnrolled n, order, room,
    reserved⟩

/-- The predicate reads the link's own records alone. -/
theorem State.LinkOk.congr (h : s.LinkOk) (same : t.rlc = s.rlc) : t.LinkOk :=
  h.queued (by rw [same]) (by rw [same]) (by rw [same]) (same ▸ h.classOrder) (same ▸ h.room) (same ▸ h.reserved)

theorem listens_iff {n : Fin 9} :
    s.listens n = true ↔ hasMember s.rlc.enrolled n.val = true ∧ (s.node n).state ≠ .isolated := by
  simp [State.listens]

theorem State.LinkOk.setNode (h : s.LinkOk) (n : Fin 9) {e : NodeEntry} (ok : e.Ok s.rlc.silenceLimit)
    (start : hasMember s.rlc.enrolled n.val = false → e = NodeEntry.start) : (s.setNode n e).LinkOk := by
  refine ⟨fun k => ?_, fun k (out : hasMember s.rlc.enrolled k.val = false) => ?_, h.classOrder, h.room, h.reserved⟩
  · rw [node_setNode]
    split
    · exact ok
    · exact h.nodes k
  · rw [node_setNode]
    split
    · next same => exact start (same ▸ out)
    · exact h.notEnrolled k out

/-- A health event of a node whose slots are not ignored. -/
theorem State.LinkOk.updateNode (h : s.LinkOk) {n : Fin 9} {e : NodeEntry} (listens : s.listens n = true)
    (ok : e.Ok s.rlc.silenceLimit) : (updateNode n e s).LinkOk := by
  obtain ⟨enrolled, -⟩ := listens_iff.mp listens
  exact (h.setNode n ok (by simp [enrolled])).congr (updateNode_rlc n e)

theorem State.LinkOk.heard (h : s.LinkOk) {n : Fin 9} (listens : s.listens n = true) : (heard n s).LinkOk := by
  obtain ⟨enrolled, state⟩ := listens_iff.mp listens
  exact (h.setNode n ((h.nodes n).goodFrame state _) (by simp [enrolled])).congr (heard_rlc n)

theorem node_writeLink (period limit : Nat) (enrolled : MemberSet 9) (n : Fin 9) :
    (writeLink period limit enrolled s).node n =
      linkedEntry (hasMember s.rlc.enrolled n.val != hasMember enrolled n.val) limit (s.node n) :=
  getElem_tabulate ..

theorem State.LinkOk.writeLink (h : s.LinkOk) (period limit : Nat) (enrolled : MemberSet 9) :
    (writeLink period limit enrolled s).LinkOk := by
  refine ⟨fun n => ?_, fun n (out : hasMember enrolled n.val = false) => ?_, h.classOrder, h.room, h.reserved⟩
  · rw [node_writeLink]
    exact (h.nodes n).linked limit _
  · rw [node_writeLink, out]
    cases member : hasMember s.rlc.enrolled n.val with
    | true => rfl
    | false =>
      rw [h.notEnrolled n member]
      simp [linkedEntry, NodeEntry.start]

/-- The room that the STOPs carried leave to replies (R171). -/
theorem roomForReplies (stops : List BeaconRecord) :
    beaconRoom - (stops.take beaconRoom).length = beaconRoom - stops.length := by
  rw [List.length_take]
  omega

/-- The replies that fit leave the head of the queue, the taken set starts empty, the cycle number rises (R171). -/
theorem sendBeacon_rlc (s : State) : (sendBeacon s).rlc =
    { s.rlc with
      queue := s.rlc.queue.drop (beaconRoom - s.owedStops.length), taken := 0, cycle := s.rlc.cycle + 1 } := by
  simp only [sendBeacon, carryFolders_rlc, roomForReplies]

theorem State.LinkOk.sendBeacon (h : s.LinkOk) : (sendBeacon s).LinkOk := by
  refine h.queued ?_ ?_ ?_ ?_ ?_ ?_ <;> rw [sendBeacon_rlc]
  · exact h.classOrder.sublist (List.drop_sublist ..)
  · rw [List.length_drop]
    exact Nat.le_trans (Nat.sub_le ..) h.room
  · exact h.reserved

/-- Every start begins with the node table at its start values and the queue empty (R197, R198). -/
theorem commonStart_linkOk (s : State) : (commonStart s).LinkOk := by
  have node : ∀ n, (commonStart s).node n = NodeEntry.start := fun n => by simp [commonStart, State.node]
  exact ⟨fun n => node n ▸ NodeEntry.start_ok _, fun n _ => node n, List.Pairwise.nil, Nat.zero_le _, rfl⟩

theorem coldStart_linkOk (cause : StartCause) (s : State) : (coldStart cause s).LinkOk :=
  (commonStart_linkOk (coldValues s)).congr (by simp [coldStart])

theorem warmStart_linkOk (cause : StartCause) (s : State) : (warmStart cause s).LinkOk :=
  (commonStart_linkOk s).congr (by simp [warmStart])

theorem startByPower_linkOk (kind : StartKind) (s : State) : (startByPower kind s).LinkOk := by
  cases kind with
  | cold => exact coldStart_linkOk _ _
  | warm => exact warmStart_linkOk _ _

theorem State.LinkOk.powerOn (h : s.LinkOk) (kind : StartKind) : (powerOn kind s).LinkOk := by
  unfold Machine.powerOn
  split
  · exact h.congr rfl
  · exact startByPower_linkOk _ _

theorem State.LinkOk.resetReturns (h : s.LinkOk) : (resetReturns s).LinkOk := by
  unfold Machine.resetReturns
  (repeat' split)
  · exact startByPower_linkOk _ _
  · exact warmStart_linkOk _ _
  · exact h.congr rfl

/-! ## Slots (R161, R168 to R170) -/

/-- The place reserved for a frame is taken by its reply, or given up: none stays reserved (R170). -/
theorem State.LinkOk.settleReply (h : s.LinkOk) (room : s.queueFree = true) {n k : Fin 9} {tag : Byte}
    {cls : ReplyBody → ReplyClass} {a : LinkAnswer} (link : a.state.rlc = (takeFrame n s).rlc) :
    (settleReply k tag cls a).LinkOk := by
  have free : s.rlc.queue.length + s.rlc.reserved < 16 := by simpa [State.queueFree] using room
  have released : s.rlc.reserved + 1 - 1 = 0 := h.reserved
  unfold Machine.settleReply
  rw [link]
  refine h.queued rfl rfl rfl ?_ ?_ released
  · split
    · exact h.classOrder
    · exact joinQueue_classOrder _ h.classOrder
  · split
    · exact h.room
    · dsimp only [takeFrame]
      rw [length_joinQueue]
      omega

/-- What a frame's service may rely on holds of the state it meets. -/
theorem frameTaken_served (s : State) (n : Fin 9) : Served True (s.frameArrival n) (frameTaken n s) := by
  refine ⟨?_, .inr fun _ => trivial, ?_⟩
  · simpa using frameArrival_le s n
  · rw [frameTaken, heard_underway]

theorem goodFrame_linkOk (h : s.LinkOk) {n : Fin 9} {m : SlotMoment} {isIdle : Bool} {tag : Byte}
    {cls : ReplyBody → ReplyClass} {serve : Nat → State → LinkAnswer}
    (serves : ∀ arrival t, Served True arrival t → Serves True t (serve arrival t)) :
    (goodFrame n m isIdle (fun arrival t => settleReply n tag cls (serve arrival t)) s).LinkOk := by
  rcases goodFrame_cases n m isIdle (fun arrival t => settleReply n tag cls (serve arrival t)) s with
    e | e | e | ⟨listens, e⟩ | ⟨listens, -, room, e⟩ <;> rw [e]
  · exact h
  · exact h.congr rfl
  · exact h.congr rfl
  · exact h.heard listens
  · exact (h.heard listens).settleReply room (serves _ _ (frameTaken_served s n)).link

theorem requestFrame_linkOk (h : s.LinkOk) {k : MessageKind} {l : LinkFrame} {serve : Nat → State → LinkAnswer}
    (serves : ∀ arrival t, Served True arrival t → Serves True t (serve arrival t)) :
    (requestFrame k l serve s).LinkOk :=
  goodFrame_linkOk h serves

theorem windowRequest_linkOk (h : s.LinkOk) {k : MessageKind} {l : LinkFrame} {number : Byte}
    {owner : Nat → Fin 8 → Fin 16 → State → LinkAnswer}
    (serves : ∀ arrival b f t, Served True arrival t → Serves True t (owner arrival b f t)) :
    (windowRequest k l number owner s).LinkOk :=
  requestFrame_linkOk h fun arrival t met => bayRights_serves fun b => windowed_serves fun f => serves arrival b f t met

theorem gateRequest_linkOk (h : s.LinkOk) {k : MessageKind} {l : LinkFrame} {owner : Nat → State → LinkAnswer}
    (serves : ∀ arrival t, Served True arrival t → Serves True t (owner arrival t)) : (gateRequest k l owner s).LinkOk :=
  requestFrame_linkOk h fun arrival t met => gateRights_serves (serves arrival t met)

theorem slotEvent_linkOk (h : s.LinkOk) {n : Fin 9} {entry : NodeEntry → NodeEntry}
    (ok : (s.node n).state ≠ .isolated → (entry (s.node n)).Ok s.rlc.silenceLimit) : (slotEvent n entry s).LinkOk := by
  have closed : s.slotClosed.LinkOk := h.congr rfl
  unfold slotEvent
  (repeat' split)
  · next listens => exact closed.updateNode listens (ok (listens_iff.mp listens).2)
  · exact closed
  · exact h

/-! ## Office commands -/

theorem officeCommand_linkOk (h : s.LinkOk) {c : OfficeCommand} {o : OfficeFrame} {owner : Nat → State → Answer}
    (keeps : ∀ arrival t, t.LinkOk → (owner arrival t).state.LinkOk) : (officeCommand c o owner s).LinkOk :=
  officeCommand_keeps State.LinkOk h (fun _ _ _ _ => h.congr rfl) (fun _ _ ok => ok.congr rfl) (fun _ _ ok => ok.congr rfl)
    keeps

theorem State.LinkOk.setLinkAnswer (h : s.LinkOk) (period : BitVec 16) (silence : Byte) (enrolled : BitVec 16)
    (arrival : Nat) : (setLinkAnswer period silence enrolled arrival s).state.LinkOk := by
  unfold Machine.setLinkAnswer inConfig
  split
  · dsimp only
    (repeat' split)
    · exact h
    · exact h
    · exact h.writeLink _ _ _
  · exact h

theorem State.LinkOk.readmitNodeAnswer (h : s.LinkOk) (node : Byte) (arrival : Nat) :
    (readmitNodeAnswer node arrival s).state.LinkOk := by
  unfold Machine.readmitNodeAnswer
  split
  · exact h
  · exact h.setNode _ (NodeEntry.start_ok _) fun _ => rfl

theorem State.LinkOk.clearAllAnswer (h : s.LinkOk) (arrival : Nat) : (clearAllAnswer arrival s).state.LinkOk := by
  unfold Machine.clearAllAnswer
  split
  · exact coldStart_linkOk _ _
  · exact h

/-! ## Every command -/

/-- Each command that may write the link's records keeps them in order. -/
theorem writesLink_linkOk {i : Instr} (h : s.LinkOk) (executed : exec i s = .next t) (writer : writesLink i = true) :
    t.LinkOk := by
  cases i <;> (simp only [exec] at executed; cases executed)
  case setLink => exact officeCommand_linkOk h fun arrival _ ok => ok.setLinkAnswer _ _ _ arrival
  case readmitNode => exact officeCommand_linkOk h fun arrival _ ok => ok.readmitNodeAnswer _ arrival
  case clearAll => exact officeCommand_linkOk h fun arrival _ ok => ok.clearAllAnswer arrival
  case card =>
    exact requestFrame_linkOk h fun _ _ met => bayRights_serves fun b => cardAnswer_serves _ _ _ _ b met.closed
  case start => exact windowRequest_linkOk h fun _ _ _ _ met => startAnswer_serves _ _ _ _ met.run
  case total => exact windowRequest_linkOk h fun _ _ _ _ _ => totalAnswer_serves _ _ _ _ _ _
  case endCompartment => exact windowRequest_linkOk h fun _ _ _ _ _ => endAnswer_serves _ _ _ _
  case doneLoading => exact windowRequest_linkOk h fun _ _ _ _ _ => doneAnswer_serves _ _ _
  case entry => exact gateRequest_linkOk h fun _ _ _ => entryAnswer_serves _ _
  case release => exact gateRequest_linkOk h fun _ _ met => releaseAnswer_serves _ _ _ met.past
  case exit => exact gateRequest_linkOk h fun _ _ _ => exitAnswer_serves _ _
  case idle => exact requestFrame_linkOk h fun _ _ _ => .silentOrDenied
  case malformedFrame => exact goodFrame_linkOk h fun _ _ _ => .silentOrDenied
  case damagedFrame node => exact slotEvent_linkOk h (h.nodes node).damagedFrame
  case emptySlot node => exact slotEvent_linkOk h (h.nodes node).emptySlot
  case beacon =>
    split
    · exact h.sendBeacon
    · exact h
  case coldStart => exact h.powerOn .cold
  case warmStart cause =>
    cases cause with
    | power => exact h.powerOn .warm
    | reset => exact h.resetReturns
  all_goals exact absurd writer Bool.false_ne_true

theorem exec_linkOk {i : Instr} (h : s.LinkOk) (executed : exec i s = .next t) : t.LinkOk := by
  cases writer : writesLink i with
  | false => exact h.congr (exec_rlc executed writer)
  | true => exact writesLink_linkOk h executed writer

end Sys2Proof.Machine

open Sys2Proof Sys2Proof.Machine in
/-- Settles O14: a command that does not write the link's records leaves them (`exec_rlc`); of the others each frame that
reserves a place settles it in the same event, and each write of the node table or the queue keeps its order. -/
theorem stepKeepsTheLink : Obligations.StepKeepsTheLink := by
  intro s t h hstep
  rcases step_cases hstep with rfl | ⟨i, rest, executed⟩
  · exact h
  · have queued : ({ s with pending := rest } : State).LinkOk := h.congr rfl
    exact exec_linkOk queued executed
end

section
/-! PROOFS. Request frames written and read back: fields most significant byte first (R199), the check word (R161), kinds and
lengths (R200). -/

namespace Sys2Proof.Machine

/-! ## Fields at a place (R199) -/

theorem byteAt_append_right (before bytes : List Byte) (k : Nat) :
    byteAt (before ++ bytes) (before.length + k) = byteAt bytes k := by
  rw [byteAt, List.getD_eq_getElem?_getD, List.getElem?_append_right (Nat.le_add_right ..), Nat.add_sub_cancel_left, byteAt,
    List.getD_eq_getElem?_getD]

theorem wordAt_append_right (before bytes : List Byte) (k : Nat) :
    wordAt (before ++ bytes) (before.length + k) = wordAt bytes k := by
  simp only [wordAt, Nat.add_assoc, byteAt_append_right]

theorem longAt_append_right (before bytes : List Byte) (k : Nat) :
    longAt (before ++ bytes) (before.length + k) = longAt bytes k := by
  simp only [longAt, Nat.add_assoc, wordAt_append_right]

/-- A number of two bytes is read back. -/
theorem wordAt_bytes2 (n : Nat) (after : List Byte) : wordAt (bytes2 n ++ after) 0 = BitVec.ofNat 16 n := by
  apply BitVec.eq_of_toNat_eq
  simp [wordAt, byteAt, bytes2]
  omega

/-- A two-byte field is read back at the place where the fields before it end. -/
theorem wordAt_wordBytes (before after : List Byte) (w : BitVec 16) :
    wordAt (before ++ wordBytes w ++ after) before.length = w := by
  rw [List.append_assoc, wordBytes, ← Nat.add_zero before.length, wordAt_append_right, wordAt_bytes2,
    BitVec.ofNat_toNat, BitVec.setWidth_eq]

/-- Four bytes are two words, the high one first. -/
theorem bytes4_eq (n : Nat) : bytes4 n = bytes2 (n / 65536) ++ bytes2 n := by
  simp [bytes4, bytes2, Nat.div_div_eq_div_mul]

theorem longAt_bytes4 (n : Nat) (after : List Byte) : longAt (bytes4 n ++ after) 0 = BitVec.ofNat 32 n := by
  have high : wordAt (bytes4 n ++ after) 0 = BitVec.ofNat 16 (n / 65536) := by
    rw [bytes4_eq, List.append_assoc, wordAt_bytes2]
  have low : wordAt (bytes4 n ++ after) (0 + 2) = BitVec.ofNat 16 n := by
    rw [bytes4_eq, List.append_assoc]
    exact (wordAt_append_right (bytes2 (n / 65536)) _ 0).trans (wordAt_bytes2 n after)
  rw [longAt, high, low]
  apply BitVec.eq_of_toNat_eq
  simp only [BitVec.toNat_ofNat]
  omega

/-- A four-byte field is read back at the place where the fields before it end. -/
theorem longAt_longBytes (before after : List Byte) (w : BitVec 32) :
    longAt (before ++ longBytes w ++ after) before.length = w := by
  rw [List.append_assoc, longBytes, ← Nat.add_zero before.length, longAt_append_right, longAt_bytes4,
    BitVec.ofNat_toNat, BitVec.setWidth_eq]

/-! ## The check word (R161) -/

theorem length_withCheckWord (body : List Byte) : (withCheckWord body).length = body.length + 2 := by
  rw [withCheckWord, List.length_append]
  rfl

theorem take_withCheckWord (body : List Byte) :
    (withCheckWord body).take ((withCheckWord body).length - 2) = body := by
  rw [length_withCheckWord, Nat.add_sub_cancel, withCheckWord, List.take_left]

theorem checkWordOk_withCheckWord (body : List Byte) : checkWordOk (withCheckWord body) = true := by
  rw [checkWordOk, take_withCheckWord, length_withCheckWord]
  simp

/-- A whole frame with its check word is read by its body. -/
theorem decodeSlot_withCheckWord (node : Fin 9) (moment : SlotMoment) (body : List Byte) :
    decodeSlot node moment (.bytes (withCheckWord body) true) = decodeBody node moment body := by
  rw [decodeSlot, checkWordOk_withCheckWord, take_withCheckWord]
  rfl

/-! ## Requests (R200) -/

theorem kindOfCode_kindRow (k : MessageKind) : kindOfCode (kindRow k).1 = some k := by cases k <;> rfl

variable {i : Instr} {l : LinkFrame} {k : MessageKind} {fields : List Byte}

/-- A request's frame has the length of its kind: kind, tag, fields and check word. -/
theorem length_linkParts (parts : linkParts i = some (l, k, fields)) : fields.length + 4 = (kindRow k).2 := by
  cases i <;> cases parts <;> rfl

/-- A request's fields are read back as the request. -/
theorem linkInstr_linkParts (parts : linkParts i = some (l, k, fields)) : linkInstr k l fields = i := by
  cases i <;> cases parts
  case idle | start | endCompartment | doneLoading | exit => rfl
  case card tanker number =>
    have first := longAt_longBytes [] (longBytes number) tanker
    have second := longAt_longBytes (longBytes tanker) [] number
    exact (congrArg (Instr.card l · _) first).trans (congrArg (Instr.card l tanker) second)
  case total folder compartment litres flowing =>
    exact congrArg (Instr.total l folder compartment · flowing) (wordAt_wordBytes [folder, compartment] [flowing] litres)
  case entry number => exact congrArg (Instr.entry l) (longAt_longBytes [] [] number)
  case release folder placards => exact congrArg (Instr.release l folder) (wordAt_wordBytes [folder] [] placards)

end Sys2Proof.Machine

open Sys2Proof Sys2Proof.Machine in
/-- Settles O4: the check word of a written frame matches (`checkWordOk_withCheckWord`), its kind and length name the
request, and its fields are read back at their places (`linkInstr_linkParts`). -/
theorem linkFramesDecodeToTheirRequests : Obligations.LinkFramesDecodeToTheirRequests := by
  intro i l k fields parts frame
  have length : frame.length = (kindRow k).2 := by
    rw [length_withCheckWord, ← length_linkParts parts]
    simp
  refine ⟨length, ?_, rfl⟩
  rw [decodeSlot_withCheckWord, List.cons_append, List.cons_append, List.nil_append, decodeBody, kindOfCode_kindRow]
  dsimp only
  rw [if_pos (by rw [← length_linkParts parts]; rfl), linkInstr_linkParts parts]
end

section
/-! PROOFS. SET LINK and READMIT NODE at their owners (R160, R167), and the assembly of a beacon (R171). -/

namespace Sys2Proof.Machine

variable {s : State} {o : OfficeFrame}

/-! ## SET LINK and READMIT NODE (R160, R167) -/

/-- Every bay that a new enrolled set leaves out is held by no folder. -/
theorem leavesHeldBay_eq_false {enrolled : MemberSet 9}
    (free : ∀ b : Fin 8, hasMember enrolled b.val = false → ∀ f, (s.folder f).bay ≠ some b) :
    leavesHeldBay s enrolled = false := by
  rw [leavesHeldBay, List.any_eq_false]
  intro b _
  cases left : hasMember enrolled b.val with
  | true => simp
  | false => simp [folderOfBay_eq_none (free b left)]

/-- A set of the nine nodes as it travels and as it is held has the same members. -/
theorem hasMember_setWidth {k : Nat} (set : BitVec 16) (node : k < 9) :
    hasMember (set.setWidth 9) k = hasMember set k := by
  simp [hasMember, node]

theorem setLink_completes {period : BitVec 16} {silence : Byte} {enrolled : BitVec 16} (h : s.admits o .tableEdit)
    (config : s.mc.mode = .config) (low : 100 ≤ period.toNat) (high : period.toNat ≤ 2000) (step : period.toNat % 50 = 0)
    (shortest : 2 ≤ silence.toNat) (longest : silence.toNat ≤ 64) (nodes : enrolled.toNat < 512)
    (free : ∀ b : Fin 8, hasMember enrolled b.val = false → ∀ f, (s.folder f).bay ≠ some b) :
    exec (.setLink o period silence enrolled) s = answersOk .setLink o []
      (writeLink period.toNat silence.toNat (enrolled.setWidth 9) (seen .setLink o s)) := by
  have kept : leavesHeldBay (seen .setLink o s) (enrolled.setWidth 9) = false :=
    leavesHeldBay_eq_false fun b left => free b (hasMember_setWidth enrolled (Nat.lt_succ_of_lt b.isLt) ▸ left)
  refine officeCommand_ok h ?_
  rw [setLinkAnswer, inConfig_config (by simpa using config),
    if_neg (by simp [within, enrolledOk, low, high, step, shortest, longest, nodes]), kept]
  rfl

/-- A node that joins or leaves takes its start values; the others keep theirs, their silence within the limit (R160). -/
theorem node_writeLink_seen (period limit : Nat) (enrolled : BitVec 16) (n : Fin 9) :
    (writeLink period limit (enrolled.setWidth 9) (seen .setLink o s)).node n =
      if hasMember s.rlc.enrolled n.val = hasMember enrolled n.val then
        { s.node n with silence := min (s.node n).silence limit }
      else NodeEntry.start := by
  rw [node_writeLink, hasMember_setWidth enrolled n.isLt, linkedEntry]
  by_cases same : hasMember s.rlc.enrolled n.val = hasMember enrolled n.val
  · rw [if_pos same, seen_rlc, same, bne_self_eq_false]
    rfl
  · rw [if_neg same, seen_rlc, if_pos (bne_iff_ne.mpr same)]

theorem readmitNode_completes {node : Byte} {n : Fin 9} (h : s.admits o (.grouped .nodeAdmin)) (hn : node.toNat = n.val) :
    exec (.readmitNode o node) s = answersOk .readmitNode o (byte1 (s.node n).state.code)
      ((seen .readmitNode o s).setNode n NodeEntry.start) := by
  refine officeCommand_ok h ?_
  rw [readmitNodeAnswer, indexOf_some.mpr hn]
  rfl

end Sys2Proof.Machine

open Sys2Proof Sys2Proof.Machine in
/-- Settles O50: both commands in range reach their writing, and the node table SET LINK writes is read back node by node
(`node_writeLink`). -/
theorem linkSettingsComplete : Obligations.LinkSettingsComplete := by
  intro s o
  refine ⟨?_, fun node n h hn => readmitNode_completes h hn⟩
  intro period silence enrolled h config low high step shortest longest nodes free
  exact ⟨_, setLink_completes h config low high step shortest longest nodes free, node_writeLink_seen _ _ _,
    fun k node => hasMember_setWidth enrolled node, rfl⟩
end

section
/-! PROOFS. The assembly of a beacon: the owed STOPs it carries, and the records it leaves (R159, R168, R171). -/

namespace Sys2Proof.Machine

variable {s : State}

/-! ## The STOPs of one folder -/

/-- Compartments as a beacon leaves them: each in its place as it was, or its owed STOP cleared. -/
structure PlacesKept (cs ds : List Compartment) : Prop where
  length : ds.length = cs.length
  place : ∀ (k : Nat) (c d : Compartment), cs[k]? = some c → ds[k]? = some d → d = c ∨ d = clearStop c

theorem PlacesKept.refl (cs : List Compartment) : PlacesKept cs cs :=
  ⟨rfl, fun _ _ _ hc hd => .inl (Option.some.inj (hd.symm.trans hc))⟩

theorem PlacesKept.cons {c d : Compartment} {cs ds : List Compartment} (head : d = c ∨ d = clearStop c)
    (tail : PlacesKept cs ds) : PlacesKept (c :: cs) (d :: ds) := by
  refine ⟨congrArg (· + 1) tail.length, fun k => ?_⟩
  cases k with
  | zero =>
    intro _ _ hc hd
    cases hc
    cases hd
    exact head
  | succ k => exact tail.place k

/-- With room for `room` records, a run of compartments of folder `f` from index `k` on becomes `cs'`, and `left` records
find room after it. -/
structure StopsCarried (f : Fin 16) (k room : Nat) (cs cs' : List Compartment) (left : Nat) : Prop where
  stops : stopRecords f k cs' = (stopRecords f k cs).drop room
  room : left = room - (stopRecords f k cs).length
  places : PlacesKept cs cs'

theorem stopRecords_cons_none {f : Fin 16} {k : Nat} {c : Compartment} (cs : List Compartment) (h : c.owedStop = none) :
    stopRecords f k (c :: cs) = stopRecords f (k + 1) cs := by
  rw [stopRecords, h]

theorem stopRecords_cons_some {f : Fin 16} {k : Nat} {c : Compartment} {owed : OwedStop} (cs : List Compartment)
    (h : c.owedStop = some owed) :
    stopRecords f k (c :: cs) = .stop owed.bay f k owed.reason :: stopRecords f (k + 1) cs := by
  rw [stopRecords, h]

theorem carryStops_carries (f : Fin 16) (cs : List Compartment) : ∀ k room,
    StopsCarried f k room cs (carryStops room cs).1 (carryStops room cs).2 := by
  induction cs with
  | nil => exact fun k room => ⟨by simp [carryStops, stopRecords], by simp [carryStops, stopRecords], .refl []⟩
  | cons c rest ih =>
    intro k room
    cases room with
    | zero => exact ⟨rfl, (Nat.zero_sub _).symm, PlacesKept.refl _⟩
    | succ n =>
      cases owed : c.owedStop with
      | none =>
        obtain ⟨stops, room, places⟩ := ih (k + 1) (n + 1)
        simp only [carryStops, owed, Option.isSome_none, Bool.false_eq_true, if_false]
        refine ⟨?_, ?_, .cons (.inl rfl) places⟩
        · rw [stopRecords_cons_none _ owed, stopRecords_cons_none _ owed, stops]
        · rw [stopRecords_cons_none _ owed, room]
      | some owedStop =>
        obtain ⟨stops, room, places⟩ := ih (k + 1) n
        simp only [carryStops, owed, Option.isSome_some, if_true]
        refine ⟨?_, ?_, .cons (.inr rfl) places⟩
        · rw [stopRecords_cons_none _ rfl, stopRecords_cons_some _ owed, stops, List.drop_succ_cons]
        · rw [stopRecords_cons_some _ owed, room, List.length_cons, Nat.add_sub_add_right]

/-! ## The STOPs of every folder -/

/-- A folder as a beacon leaves it: its compartments' owed STOPs aside, as it was. -/
structure KeptButStops (x y : Folder) : Prop where
  kept : { y with compartments := x.compartments } = x
  places : PlacesKept x.compartments y.compartments

theorem carryFolders_eq (l : List (Fin 16)) : ∀ room s,
    carryFolders l room s = { s with folders := (carryFolders l room s).folders } := by
  induction l with
  | nil => exact fun _ _ => rfl
  | cons f rest ih => exact fun room s => ih _ _

theorem folder_carryFolders_of_notMem {l : List (Fin 16)} {g : Fin 16} : ∀ room {s : State}, g ∉ l →
    (carryFolders l room s).folder g = s.folder g := by
  induction l with
  | nil => exact fun _ _ _ => rfl
  | cons f rest ih =>
    intro room s h
    obtain ⟨other, later⟩ := not_or.mp (mt List.mem_cons.mpr h)
    rw [carryFolders, ih _ later, folder_setFolder, if_neg (Ne.symm other)]

theorem folder_carryFolders (g : Fin 16) {l : List (Fin 16)} : ∀ room {s : State}, l.Nodup →
    KeptButStops (s.folder g) ((carryFolders l room s).folder g) := by
  induction l with
  | nil => exact fun _ _ _ => ⟨rfl, PlacesKept.refl _⟩
  | cons f rest ih =>
    intro room s h
    obtain ⟨once, later⟩ := List.nodup_cons.mp h
    rw [carryFolders]
    by_cases here : f = g
    · subst here
      rw [folder_carryFolders_of_notMem _ once, folder_setFolder, if_pos rfl]
      exact ⟨rfl, (carryStops_carries f _ 0 room).places⟩
    · have before : ∀ x, (s.setFolder f x).folder g = s.folder g := fun x => by rw [folder_setFolder, if_neg here]
      rw [← before]
      exact ih _ later

/-- The owed STOPs of the folders listed. -/
def stopsOf (l : List (Fin 16)) (s : State) : List BeaconRecord :=
  l.flatMap (fun f => stopRecords f 0 (s.folder f).compartments)

theorem stopsOf_congr {l : List (Fin 16)} {s t : State} (h : ∀ f ∈ l, t.folder f = s.folder f) :
    stopsOf l t = stopsOf l s :=
  congrArg List.flatten (List.map_congr_left fun f hf => by rw [h f hf])

/-- The STOPs for which the beacon has room are carried, in the order of the list. -/
theorem stopsOf_carryFolders {l : List (Fin 16)} : ∀ room {s : State}, l.Nodup →
    stopsOf l (carryFolders l room s) = (stopsOf l s).drop room := by
  induction l with
  | nil => exact fun _ _ _ => List.drop_nil.symm
  | cons f rest ih =>
    intro room s h
    obtain ⟨once, later⟩ := List.nodup_cons.mp h
    obtain ⟨stops, left, -⟩ := carryStops_carries f (s.folder f).compartments 0 room
    have others : ∀ x, stopsOf rest (s.setFolder f x) = stopsOf rest s := fun x =>
      stopsOf_congr fun g hg => by
        rw [folder_setFolder, if_neg (by rintro rfl; exact once hg)]
    have listed : ∀ t : State, stopsOf (f :: rest) t = stopRecords f 0 (t.folder f).compartments ++ stopsOf rest t :=
      fun t => List.flatMap_cons
    rw [listed, listed, carryFolders, ih _ later, others, folder_carryFolders_of_notMem _ once, folder_setFolder, if_pos rfl,
      stops, left, List.drop_append]

/-! ## The beacon (R171) -/

theorem sendBeacon_folders : (sendBeacon s).folders = (carryFolders (List.finRange 16) beaconRoom s).folders := rfl

theorem folder_sendBeacon (f : Fin 16) : KeptButStops (s.folder f) ((sendBeacon s).folder f) := by
  rw [folder_congr sendBeacon_folders]
  exact folder_carryFolders f _ (List.nodup_finRange 16)

theorem owedStops_eq (s : State) : s.owedStops = stopsOf (List.finRange 16) s := rfl

theorem owedStops_sendBeacon : (sendBeacon s).owedStops = s.owedStops.drop beaconRoom := by
  rw [owedStops_eq, stopsOf_congr fun f _ => folder_congr sendBeacon_folders f,
    stopsOf_carryFolders _ (List.nodup_finRange 16), ← owedStops_eq]

/-- The STOPs first, then replies from the head of the queue, in the room left. -/
theorem nextBeacon_records :
    s.nextBeacon.records = (s.owedStops ++ s.rlc.queue.map BeaconRecord.reply).take beaconRoom := by
  rw [List.take_append, ← List.map_take, ← roomForReplies]
  rfl

/-- What a beacon does not carry stays. -/
theorem sendBeacon_frame : { sendBeacon s with folders := s.folders, rlc := s.rlc, out := s.out } =
    { s with underway := { s.underway with frame := none } } := by
  unfold sendBeacon
  rw [carryFolders_eq]

end Sys2Proof.Machine

open Sys2Proof Sys2Proof.Machine in
/-- Settles O60: the STOPs are carried folder by folder (`stopsOf_carryFolders`), and the room they leave is the queue's. -/
theorem beaconComplete : Obligations.BeaconComplete := by
  intro s running
  have sent : exec .beacon s = .next (sendBeacon s) := congrArg Host.Outcome.next (if_pos running)
  refine ⟨sendBeacon s, s.nextBeacon, sent, ?_, ?_, rfl, rfl, rfl, nextBeacon_records, owedStops_sendBeacon,
    sendBeacon_rlc s, fun f => ?_, sendBeacon_frame⟩
  · simp [State.lkdeAllows, running]
  · simp only [sendBeacon, carryFolders_out]
  · obtain ⟨kept, places⟩ := folder_sendBeacon (s := s) f
    exact ⟨kept, places.length, places.place⟩
end

section
/-! PROOFS. The bytes of an office transaction: every command's frame is read back as that command (R175, R199). -/

namespace Sys2Proof.Machine

/-! ## The command code table (12, "Command codes") -/

theorem officeOfCode_officeCode (c : OfficeCommand) : officeOfCode (officeCode c) = some c := by cases c <;> rfl

/-- Every argument length is within what a frame can carry (R175). -/
theorem officeLength_le (c : OfficeCommand) : officeLength c ≤ 64 := by cases c <;> decide

theorem toNat_officeLength (c : OfficeCommand) : (BitVec.ofNat 8 (officeLength c)).toNat = officeLength c := by
  have := officeLength_le c
  rw [BitVec.toNat_ofNat, Nat.mod_eq_of_lt (by omega)]

/-! ## Fields read at their places (R199): past what stands before them, or here -/

variable {before bytes after : List Byte} {k : Nat}

theorem byteAt_skip (past : before.length ≤ k) : byteAt (before ++ bytes) k = byteAt bytes (k - before.length) := by
  simpa [past] using byteAt_append_right before bytes (k - before.length)

theorem wordAt_skip (past : before.length ≤ k) : wordAt (before ++ bytes) k = wordAt bytes (k - before.length) := by
  simpa [past] using wordAt_append_right before bytes (k - before.length)

theorem longAt_skip (past : before.length ≤ k) : longAt (before ++ bytes) k = longAt bytes (k - before.length) := by
  simpa [past] using longAt_append_right before bytes (k - before.length)

theorem byteAt_here (b : Byte) : byteAt ([b] ++ after) 0 = b := rfl

theorem wordAt_here (w : BitVec 16) : wordAt (wordBytes w ++ after) 0 = w := wordAt_wordBytes [] after w

theorem longAt_here (w : BitVec 32) : longAt (longBytes w ++ after) 0 = w := longAt_longBytes [] after w

theorem length_wordBytes (w : BitVec 16) : (wordBytes w).length = 2 := by simp [wordBytes, bytes2]

theorem length_longBytes (w : BitVec 32) : (longBytes w).length = 4 := by simp [longBytes, bytes4]

/-! ## Lists in fixed slots (12, "Two commands carry their lists in fixed slots") -/

section Slots

variable {α : Type} {n j : Nat} {slot : α → List Byte} (width : ∀ a, (slot a).length = n) (l : List α)

include width in
theorem length_flatMap_slots : (l.flatMap slot).length = l.length * n := by
  rw [List.length_flatMap, List.map_congr_left fun a _ => width a, List.map_const', List.sum_replicate_nat]

/-- Slot `j` and what follows it stand behind `j` slots. -/
theorem flatMap_slots (inside : j < l.length) :
    l.flatMap slot = (l.take j).flatMap slot ++ (slot l[j] ++ (l.drop (j + 1)).flatMap slot) := by
  rw [← List.flatMap_cons, List.getElem_cons_drop, ← List.flatMap_append, List.take_append_drop]

include width in
theorem length_flatMap_take_slots (inside : j < l.length) : ((l.take j).flatMap slot).length = j * n := by
  rw [length_flatMap_slots width, List.length_take_of_le (Nat.le_of_lt inside)]

end Slots

/-- The bytes of a papers line. -/
theorem length_lineSlot (p : BitVec 16 × Byte) : (wordBytes p.1 ++ [p.2]).length = 3 := rfl

theorem capacitiesAt_skip (past : before.length ≤ k) :
    capacitiesAt (before ++ bytes) k = capacitiesAt bytes (k - before.length) := by
  ext1 j hj
  rw [capacitiesAt, capacitiesAt, getElem_tabulate, getElem_tabulate, wordAt_skip (Nat.le_add_right_of_le past),
    Nat.sub_add_comm past]

theorem linesAt_skip (past : before.length ≤ k) :
    linesAt (before ++ bytes) k = linesAt bytes (k - before.length) := by
  ext1 j hj
  rw [linesAt, linesAt, getElem_tabulate, getElem_tabulate, Nat.add_assoc, wordAt_skip (Nat.le_add_right_of_le past),
    byteAt_skip (Nat.le_add_right_of_le past), Nat.sub_add_comm past, Nat.sub_add_comm past, ← Nat.add_assoc]

theorem capacitiesAt_here (slots : Vector (BitVec 16) 6) : capacitiesAt (capacityBytes slots ++ after) 0 = slots := by
  ext1 j hj
  have inside : j < slots.toList.length := by rwa [Vector.length_toList]
  have place := length_flatMap_take_slots length_wordBytes slots.toList inside
  rw [capacitiesAt, getElem_tabulate, capacityBytes, flatMap_slots slots.toList inside, List.append_assoc, List.append_assoc]
  simp only [place, wordAt_skip, wordAt_here, Nat.zero_add, Nat.mul_comm, Nat.le_refl, Nat.sub_self, Vector.getElem_toList]

theorem linesAt_here (slots : Vector (BitVec 16 × Byte) 6) : linesAt (lineBytes slots ++ after) 0 = slots := by
  ext1 j hj
  have inside : j < slots.toList.length := by rwa [Vector.length_toList]
  have place := length_flatMap_take_slots length_lineSlot slots.toList inside
  rw [linesAt, getElem_tabulate, lineBytes, flatMap_slots slots.toList inside, List.append_assoc, List.append_assoc,
    List.append_assoc]
  simp only [place, wordAt_skip, wordAt_here, byteAt_skip, byteAt_here, length_wordBytes, Nat.zero_add, Nat.mul_comm,
    Nat.le_refl, Nat.le_add_right, Nat.sub_self, Nat.add_sub_cancel_left, Vector.getElem_toList]

/-! ## Commands -/

variable {i : Instr} {o : OfficeFrame} {c : OfficeCommand} {args : List Byte}

/-- The arguments of a command have the length its code takes. -/
theorem length_officeParts (parts : officeParts i = some (o, c, args)) : args.length = officeLength c := by
  cases i <;> cases parts
  case createFolder capacities =>
    rw [List.length_append, capacityBytes, length_flatMap_slots length_wordBytes, Vector.length_toList]
    rfl
  case setPapers lines =>
    rw [List.length_append, lineBytes, length_flatMap_slots length_lineSlot, Vector.length_toList]
    rfl
  all_goals rfl

/-- A command's arguments are read back as the command, whatever follows them: the fields before the one read are passed
over by their lengths. -/
theorem officeInstr_officeParts (parts : officeParts i = some (o, c, args)) (after : List Byte) :
    officeInstr c o (args ++ after) = i := by
  cases i <;> cases parts
  all_goals
    simp only [officeInstr, List.append_assoc, byteAt_here, wordAt_here, longAt_here, capacitiesAt_here, linesAt_here,
      byteAt_skip, wordAt_skip, longAt_skip, capacitiesAt_skip, linesAt_skip, List.length_singleton, length_wordBytes,
      length_longBytes, Nat.le_refl, Nat.reduceLeDiff, Nat.reduceSub]

/-- A complete frame is read by its code, its tag and its arguments (R175, R177). -/
theorem decodeTransaction_frame {tag : Byte} {skey : Bool} {moment : OfficeMoment} (bits : Fin 8)
    (length : args.length = officeLength c) :
    decodeTransaction skey moment ([officeCode c, tag, BitVec.ofNat 8 (officeLength c)] ++ args ++ after) bits
      = officeInstr c ⟨tag, skey, moment, after.length⟩ args := by
  have short := officeLength_le c
  have clocked : (args ++ after).length = officeLength c + after.length := by rw [List.length_append, length]
  simp only [List.cons_append, List.nil_append, decodeTransaction]
  rw [toNat_officeLength, clocked, if_neg (by omega), if_neg (by omega), officeOfCode_officeCode]
  dsimp only
  rw [if_pos rfl, ← length, List.take_left, Nat.add_sub_cancel_left]

end Sys2Proof.Machine

open Sys2Proof Sys2Proof.Machine in
/-- Settles O3: a frame is read by its code and its arguments (`decodeTransaction_frame`), and each argument is read back at
its place (`officeInstr_officeParts`). -/
theorem officeFramesDecodeToTheirCommands : Obligations.OfficeFramesDecodeToTheirCommands := by
  intro i o c args after bits parts extra
  have length := length_officeParts parts
  refine ⟨length, ?_⟩
  rw [decodeTransaction_frame bits length, extra, ← List.append_nil args]
  exact officeInstr_officeParts parts []
end

section
/-! PROOFS. Whatever comes over a port is read as a well-formed command (R161, R175, R177). -/

namespace Sys2Proof.Machine

theorem officeInstr_wf (c : OfficeCommand) (o : OfficeFrame) (args : List Byte) : (officeInstr c o args).wf = true := by
  cases c <;> rfl

theorem linkInstr_wf (k : MessageKind) (l : LinkFrame) (fields : List Byte) : (linkInstr k l fields).wf = true := by
  cases k <;> rfl

/-- A frame of a code and a length that no command has is refused with FORMAT (R177). -/
theorem unknownCommandCode_wf {o : OfficeFrame} {code length : Byte}
    (other : ∀ c, officeOfCode code = some c → officeLength c ≠ length.toNat) :
    (Instr.unknownCommandCode o code length).wf = true := by
  cases named : officeOfCode code with
  | none => simp [Instr.wf, namesCommand, named]
  | some c => simp [Instr.wf, namesCommand, named, other c named]

/-- A body that has the length of no kind its code names is a malformed frame (R161, R200). -/
theorem malformedFrame_wf {node : Fin 9} {moment : SlotMoment} {body : List Byte}
    (other : ∀ k, body.head?.bind kindOfCode = some k → (kindRow k).2 ≠ body.length + 2) :
    (Instr.malformedFrame node moment body).wf = true := by
  rw [Instr.wf, namesKind]
  cases named : body.head?.bind kindOfCode with
  | none => rfl
  | some k => simp [other k named]

/-- Every frame has at least its kind, its tag and its check word (R200). -/
theorem four_le_kindRow (k : MessageKind) : 4 ≤ (kindRow k).2 := by cases k <;> decide

/-- What is read over the office port (R175, R177). -/
theorem decodeTransaction_wf (skey : Bool) (moment : OfficeMoment) (bytes : List Byte) (bits : Fin 8) :
    (decodeTransaction skey moment bytes bits).wf = true := by
  unfold decodeTransaction
  split
  · next code tag length rest =>
    split
    · next long =>
      refine unknownCommandCode_wf fun c _ => ?_
      have := officeLength_le c
      omega
    · next short =>
      split
      · next cut => simp [Instr.wf, incompleteFrame, cut, Nat.not_lt.mp short]
      · dsimp only
        split
        · next c named =>
          split
          · exact officeInstr_wf _ _ _
          · next other => exact unknownCommandCode_wf fun x same => Option.some.inj (named.symm.trans same) ▸ other
        · next unnamed => exact unknownCommandCode_wf fun c named => nomatch unnamed.symm.trans named
  · next few =>
    rw [Instr.wf]
    unfold incompleteFrame
    split
    · next code tag length rest => exact absurd rfl (few code tag length rest)
    · rfl

/-- What is read of a good frame's body (R161, R200). -/
theorem decodeBody_wf (node : Fin 9) (moment : SlotMoment) (body : List Byte) : (decodeBody node moment body).wf = true := by
  unfold decodeBody
  split
  · next code tag fields =>
    split
    · next k named =>
      split
      · exact linkInstr_wf _ _ _
      · next other => exact malformedFrame_wf fun x same => Option.some.inj (named.symm.trans same) ▸ other
    · next unnamed => exact malformedFrame_wf fun k named => nomatch unnamed.symm.trans named
  · next few =>
    refine malformedFrame_wf fun k _ => ?_
    have frame := four_le_kindRow k
    match body, few with
    | [], _ => simp only [List.length_nil]; omega
    | [_], _ => simp only [List.length_singleton]; omega
    | code :: tag :: fields, few => exact absurd rfl (few code tag fields)

theorem decodeSlot_wf (node : Fin 9) (moment : SlotMoment) (r : Reception) : (decodeSlot node moment r).wf = true := by
  unfold decodeSlot
  split
  · rfl
  · split
    · exact decodeBody_wf _ _ _
    · rfl

end Sys2Proof.Machine

open Sys2Proof Sys2Proof.Machine in
/-- Settles O5: each branch of the two decoders has found what its command claims. -/
theorem decodedCommandsAreWellFormed : Obligations.DecodedCommandsAreWellFormed :=
  ⟨decodeTransaction_wf, decodeSlot_wf⟩
end

section
/-! PROOFS. Refusals: an owner that refuses an office command, or denies or refuses a request, leaves the records it met
(R108, R127, R177, R179). -/

namespace Sys2Proof.Machine

variable {s t : State}

/-! ## Office commands at their owners -/

/-- What an owner answers: OK with the records as it has written them, or a refusal with the records it met. -/
inductive Answered (s : State) : Answer → Prop where
  | ok (t : State) (data : List Byte) : Answered s (answerOk t data)
  | refused (r : Reason) (data : List Byte) : Answered s ⟨s, some r, data⟩

/-- A refusal leaves the records as they were. -/
theorem Answered.state_of_refused {a : Answer} (h : Answered s a) {r : Reason} (refused : a.result = some r) :
    a.state = s := by
  cases h with
  | ok t data => cases refused
  | refused r data => rfl

/-- A read writes no record, whatever it answers. -/
theorem Answered.of_state {a : Answer} (h : a.state = s) : Answered s a := by
  obtain ⟨u, result, data⟩ := a
  cases h
  cases result with
  | none => exact .ok u data
  | some r => exact .refused r data

theorem onAccount_answered {index : Byte} {act : Fin 64 → State → Answer} (h : ∀ i, Answered s (act i s)) :
    Answered s (onAccount index act s) := by
  unfold onAccount
  split
  · exact .refused .range []
  · split
    · exact .refused .unknownDriver []
    · exact h _

theorem onFolder_answered {folder : Byte} {act : Fin 16 → State → Answer} (h : ∀ f, Answered s (act f s)) :
    Answered s (onFolder folder act s) := by
  unfold onFolder
  split
  · exact .refused .range []
  · exact h _

theorem onFolderIn_answered {folder : Byte} {states : List FolderState} {act : Fin 16 → State → Answer}
    (h : ∀ f, Answered s (act f s)) : Answered s (onFolderIn folder states act s) := by
  refine onFolder_answered fun f => ?_
  split
  · exact h f
  · exact .refused .badState []

theorem inConfig_answered {act : State → Answer} (h : Answered s (act s)) : Answered s (inConfig act s) := by
  unfold inConfig
  split
  · exact h
  · exact .refused .mode []

/-- A status change that is refused writes nothing (R13, step 1). -/
theorem changeStatus_refused {i : Fin 64} {new : Status} {time : Nat} {r : Reason}
    (h : (changeStatus i new time s).refusal = some r) : (changeStatus i new time s).state = s := by
  unfold changeStatus at h ⊢
  split
  · rfl
  · next held =>
    rw [if_neg held] at h
    split
    · rfl
    · next past =>
      rw [if_neg past] at h
      dsimp only at h
      split at h <;> cases h

theorem setStatusAnswer_answered (index status : Byte) (time : BitVec 32) (arrival : Nat) :
    Answered s (setStatusAnswer index status time arrival s) := by
  unfold setStatusAnswer
  split
  · dsimp only
    split
    · next refused => exact .of_state (changeStatus_refused refused)
    · exact .ok _ _
  · exact .refused .range []

/-- Every office command but READ REPLY reaches an owner that answers OK or leaves the records it met: every branch of an
owner is `answerOk`, or a refusal of the state it was given. -/
theorem exec_eq_answered {i : Instr} {o : OfficeFrame} {c : OfficeCommand} (h : isOffice i o c) (served : c ≠ .readReply) :
    ∃ owner, exec i s = .next (officeCommandOf c (fun t => classIn t i) o owner s) ∧
      ∀ arrival t, Answered t (owner arrival t) := by
  obtain ⟨args, parts⟩ := h
  cases i <;> cases parts
  case readReply => exact absurd rfl served
  all_goals refine ⟨_, rfl, fun arrival t => ?_⟩
  -- accounts, hours and clock
  case openAccount => unfold openAccountAnswer; (repeat' split) <;> constructor
  case editAccount => unfold editAccountAnswer; (repeat' split) <;> constructor
  case suspendAccount => exact onAccount_answered fun _ => by unfold suspendAnswer; split <;> constructor
  case resumeAccount => exact onAccount_answered fun _ => by unfold resumeAnswer; split <;> constructor
  case closeAccount => exact onAccount_answered fun _ => by unfold closeAnswer; split <;> constructor
  case setStatus => exact setStatusAnswer_answered _ _ _ _
  case clearLate | readAccount => exact onAccount_answered fun _ => .ok _ _
  case findCard => exact .of_state (findCardAnswer_state _ _ _)
  case setProfile => unfold setProfileAnswer; (repeat' split) <;> constructor
  case cancelPendingProfile => unfold cancelPendingProfileAnswer; (repeat' split) <;> constructor
  case readProfile => exact .of_state (readProfileAnswer_state _ _ _)
  case readAllowance => exact .of_state (readAllowanceAnswer_state _ _ _)
  case hoursCheck => exact .of_state (hoursCheckAnswer_state _ _ _)
  case setTime => unfold setTimeAnswer; (repeat' split) <;> constructor
  case adjustTime => unfold adjustTimeAnswer; split <;> constructor
  case readAlarms => exact .of_state (readAlarmsAnswer_state _ _ _)
  -- folders
  case createFolder => unfold createFolderAnswer createChecked; (repeat' split) <;> constructor
  case setCompartment => exact onFolder_answered fun _ => by (repeat' split) <;> constructor
  case setPapers => exact onFolder_answered fun _ => by dsimp only; (repeat' split) <;> constructor
  case setTrip =>
    unfold setTripAnswer
    split
    · constructor
    · exact onFolderIn_answered fun _ => .ok _ _
  case submit => exact onFolderIn_answered fun _ => by unfold submitOpen; dsimp only; split <;> constructor
  case assignBay => unfold assignBayAnswer; (repeat' split) <;> constructor
  case amend => exact onFolder_answered fun _ => by unfold amendCompartment; (repeat' split) <;> constructor
  case reopen | unassign | overrideFolder | finishLoading => exact onFolderIn_answered fun _ => .ok _ _
  case voidFolder => exact onFolderIn_answered fun _ => by unfold voidHeld; split <;> constructor
  case readFolder => exact onFolder_answered fun _ => by unfold readFolderAnswer; split <;> constructor
  case readCompartment => exact .of_state (readCompartmentAnswer_state _ _ _ _)
  -- tables, log, rights and link
  case setSubstance => exact inConfig_answered (by unfold writeSubstance; (repeat' split) <;> constructor)
  case readSubstance => exact .of_state (readSubstanceAnswer_state _ _ _)
  case listSubstances => exact .of_state (listSubstancesAnswer_state _ _ _)
  case setMatrixPair => exact inConfig_answered (by unfold writePair; (repeat' split) <;> constructor)
  case readMatrix => exact .of_state (readMatrixAnswer_state _ _ _)
  case readLog => exact .of_state (readLogAnswer_state _ _ _)
  case ackLog => unfold ackLogAnswer; split <;> constructor
  case clearSubstance | setThreshold | setLink => exact inConfig_answered (by (repeat' split) <;> constructor)
  case setMetering | setLogWarning => exact inConfig_answered (by split <;> constructor)
  case setRights => unfold setRightsAnswer; (repeat' split) <;> constructor
  case readmitNode => unfold readmitNodeAnswer; split <;> constructor
  -- office port and modes
  case ackAttention => unfold ackAttentionAnswer; split <;> constructor
  case setEnables => unfold setEnablesAnswer; split <;> constructor
  case requestMode => unfold requestModeAnswer; (repeat' split) <;> constructor
  case clearAll => unfold clearAllAnswer; split <;> constructor
  -- reads that cannot be refused
  all_goals exact .ok _ _

/-- A handled command that is answered with a refusal other than a denial meets its owner, and leaves the records of `seen`
under its reply. -/
theorem refused_eq_placeReply {i : Instr} {o : OfficeFrame} {c : OfficeCommand} {reply : OfficeReply} {r : Reason}
    (h : isOffice i o c) (served : c ≠ .readReply) (handled : s.handles o) (next : exec i s = .next t)
    (held : t.op.reply = some reply) (result : reply.result = some r) (notDenied : r ≠ .deniedRole) :
    t = { seen c o s with op := { s.op with reply := t.op.reply } } := by
  obtain ⟨owner, reached, answered⟩ := exec_eq_answered (s := s) h served
  rw [reached] at next
  cases next
  cases passes : officePasses s o (classIn s i) with
  | false =>
    rw [officeCommandOf_denied handled passes] at held
    cases held
    cases result
    exact absurd rfl notDenied
  | true =>
    rw [officeCommandOf_admitted ⟨handled, passes⟩] at held ⊢
    cases held
    unfold placeReply
    rw [(answered _ _).state_of_refused result]
    rfl

/-! ## Requests at their owners -/

/-- A reply that refuses a request other than by a denial: DENY with an owner's reason, or REFUSE where no release check was
made (R108, R127). -/
def RefusalReply (body : ReplyBody) (argument : Argument) : Prop :=
  (∃ r, body = .deny r ∧ r ≠ .deniedRole ∧ r ≠ .deniedWindow) ∨
    ((∃ set, body = .refuse set) ∧ argument ≠ .folderState .ready)

/-- What a served request answers: with the records it met, in silence, or with a reply that is no such refusal; the link's
own records are left alone. -/
inductive LinkAnswered (s : State) : LinkAnswer → Prop where
  | kept (reply : Option (ReplyBody × Argument)) : LinkAnswered s ⟨s, reply⟩
  | silent (t : State) (link : t.rlc = s.rlc) : LinkAnswered s (silent t)
  | replied (t : State) (body : ReplyBody) (argument : Argument) (link : t.rlc = s.rlc)
      (other : ¬RefusalReply body argument) : LinkAnswered s (replied t body argument)

theorem LinkAnswered.state_of_refused {a : LinkAnswer} {body : ReplyBody} {argument : Argument} (h : LinkAnswered s a)
    (reply : a.reply = some (body, argument)) (refused : RefusalReply body argument) : a.state = s := by
  cases h with
  | kept => rfl
  | silent => cases reply
  | replied t body argument link other => cases reply; exact absurd refused other

theorem LinkAnswered.link {a : LinkAnswer} (h : LinkAnswered s a) : a.state.rlc = s.rlc := by
  cases h with
  | kept => rfl
  | silent t link => exact link
  | replied t body argument link => exact link

theorem LinkAnswered.accepted {argument : Argument} (link : t.rlc = s.rlc) :
    LinkAnswered s (Machine.replied t .accept argument) :=
  .replied t _ argument link (by simp [RefusalReply])

theorem linkDenial_answered {k : MessageKind} {n : Fin 9} {reason : Reason} {argument : Argument} {named : Option Byte}
    {arrival : Nat} (denial : reason = .deniedRole ∨ reason = .deniedWindow) :
    LinkAnswered s (linkDenial k n reason argument named arrival s) :=
  .replied _ _ _ rfl (by rcases denial with rfl | rfl <;> simp [RefusalReply])

theorem onCompartment_answered {compartment : Byte} {act : Compartment → State → LinkAnswer} {f : Fin 16}
    (h : ∀ c, LinkAnswered s (act c s)) : LinkAnswered s (onCompartment compartment act f s) := by
  unfold onCompartment
  split
  · exact .kept _
  · split
    · exact h _
    · exact .kept _

/-- An accepted CARD writes a folder, an account and what follows from them (R74). -/
theorem acceptCard_rlc (f : Fin 16) (i : Fin 64) (arrival : Nat) (s : State) : (acceptCard f i arrival s).rlc = s.rlc := by
  unfold acceptCard
  dsimp only
  split <;> simp

theorem cardAnswer_answered (leftRun : Bool) (tanker number : BitVec 32) (arrival : Nat) (b : Fin 8) :
    LinkAnswered s (cardAnswer leftRun tanker number arrival b s) := by
  unfold cardAnswer
  dsimp only
  repeat' split
  case isFalse.isFalse.isFalse => exact .accepted (acceptCard_rlc _ _ _ s)
  all_goals exact .kept _

theorem startOn_answered (f : Fin 16) (k : Nat) (c : Compartment) : LinkAnswered s (startOn f k c s) := by
  unfold startOn
  repeat' split
  case isFalse.isFalse.isFalse => exact .replied _ _ _ rfl (by simp [RefusalReply])
  all_goals exact .kept _

theorem totalOn_answered (b : Fin 8) (f : Fin 16) (k litres arrival : Nat) (flowing : Bool) (c : Compartment) :
    LinkAnswered s (totalOn b f k litres arrival flowing c s) := by
  unfold totalOn
  split
  · exact .kept _
  · split <;> exact .silent _ rfl

theorem totalAnswer_answered (compartment : Byte) (litres : BitVec 16) (flowing : Byte) (arrival : Nat) (b : Fin 8)
    (f : Fin 16) : LinkAnswered s (totalAnswer compartment litres flowing arrival b f s) := by
  unfold totalAnswer
  split
  · exact .kept _
  · exact onCompartment_answered fun c => totalOn_answered _ _ _ _ _ _ c

theorem endOn_answered (f : Fin 16) (k : Nat) (c : Compartment) : LinkAnswered s (endOn f k c s) := by
  unfold endOn
  split
  · exact .kept _
  · exact .silent _ rfl

theorem doneAnswer_answered (arrival : Nat) (b : Fin 8) (f : Fin 16) : LinkAnswered s (doneAnswer arrival b f s) := by
  unfold doneAnswer
  dsimp only
  repeat' split
  case isFalse.isFalse => exact .accepted (by simp)
  all_goals exact .kept _

theorem entryAnswer_answered (number : BitVec 32) (arrival : Nat) : LinkAnswered s (entryAnswer number arrival s) := by
  unfold entryAnswer
  split
  · exact .kept _
  · split
    · exact .kept _
    · exact .accepted (by simp)

theorem exitAnswer_answered (folder : Byte) (arrival : Nat) : LinkAnswered s (exitAnswer folder arrival s) := by
  unfold exitAnswer
  split
  · exact .kept _
  · split
    · exact .kept _
    · exact .accepted (by simp)

/-- A RELEASE of a READY folder is granted, or refused with READY as its argument (R130, R131). -/
theorem releaseReady_answered (confirmed : MemberSet 16) (arrival : Nat) (f : Fin 16) :
    LinkAnswered s (releaseReady confirmed arrival f s) := by
  unfold releaseReady
  dsimp only
  split <;> exact .replied _ _ _ (by simp) (by simp [RefusalReply])

theorem releaseAnswer_answered (folder : Byte) (placards : BitVec 16) (arrival : Nat) :
    LinkAnswered s (releaseAnswer folder placards arrival s) := by
  unfold releaseAnswer
  split
  · exact .kept _
  · split
    · exact .kept _
    · split
      · exact .kept _
      · exact releaseReady_answered _ _ _

/-! ## Requests under their rights -/

/-- The outcome of a request is that of a frame whose service answers as `LinkAnswered` says. -/
def ServedSoundly (k : MessageKind) (l : LinkFrame) (s : State) (outcome : Host.Outcome State Fault Refusal) : Prop :=
  ∃ serve, outcome = .next (requestFrame k l serve s) ∧ ∀ arrival t, LinkAnswered t (serve arrival t)

variable {k : MessageKind} {l : LinkFrame}

theorem bayRequest_servedSoundly {owner : Nat → Fin 8 → State → LinkAnswer}
    (h : ∀ arrival b t, LinkAnswered t (owner arrival b t)) : ServedSoundly k l s (.next (bayRequest k l owner s)) := by
  refine ⟨_, rfl, fun arrival t => ?_⟩
  unfold bayRights
  split
  · exact h arrival _ t
  · exact linkDenial_answered (.inl rfl)

theorem windowRequest_servedSoundly {number : Byte} {owner : Nat → Fin 8 → Fin 16 → State → LinkAnswer}
    (h : ∀ arrival b f t, LinkAnswered t (owner arrival b f t)) :
    ServedSoundly k l s (.next (windowRequest k l number owner s)) := by
  refine bayRequest_servedSoundly fun arrival b t => ?_
  unfold windowed
  split
  · exact linkDenial_answered (.inr rfl)
  · split
    · exact h arrival b _ t
    · exact linkDenial_answered (.inr rfl)

theorem gateRequest_servedSoundly {owner : Nat → State → LinkAnswer} (h : ∀ arrival t, LinkAnswered t (owner arrival t)) :
    ServedSoundly k l s (.next (gateRequest k l owner s)) := by
  refine ⟨_, rfl, fun arrival t => ?_⟩
  unfold gateRights
  split
  · exact linkDenial_answered (.inl rfl)
  · exact h arrival t

theorem exec_servedSoundly {i : Instr} {fields : List Byte} (parts : linkParts i = some (l, k, fields)) :
    ServedSoundly k l s (exec i s) := by
  cases i <;> cases parts
  case idle => exact ⟨_, rfl, fun _ t => .silent t rfl⟩
  case card => exact bayRequest_servedSoundly fun _ _ _ => cardAnswer_answered _ _ _ _ _
  case start => exact windowRequest_servedSoundly fun _ _ _ _ => onCompartment_answered fun _ => startOn_answered _ _ _
  case total => exact windowRequest_servedSoundly fun _ _ _ _ => totalAnswer_answered _ _ _ _ _ _
  case endCompartment =>
    exact windowRequest_servedSoundly fun _ _ _ _ => onCompartment_answered fun _ => endOn_answered _ _ _
  case doneLoading => exact windowRequest_servedSoundly fun _ _ _ _ => doneAnswer_answered _ _ _
  case entry => exact gateRequest_servedSoundly fun _ _ => entryAnswer_answered _ _
  case release => exact gateRequest_servedSoundly fun _ _ => releaseAnswer_answered _ _ _
  case exit => exact gateRequest_servedSoundly fun _ _ => exitAnswer_answered _ _

/-! ## The reply that joined the queue (R170) -/

theorem joinQueue_perm (r : ReplyRecord) (queue : List ReplyRecord) : (joinQueue r queue).Perm (r :: queue) := by
  induction queue with
  | nil => exact .refl _
  | cons x rest ih =>
    unfold joinQueue
    split
    · exact .refl _
    · exact (ih.cons x).trans (.swap r x rest)

/-- The queue after a reply tells which reply joined it. -/
theorem joinQueue_left_inj {r x : ReplyRecord} {queue : List ReplyRecord} (h : joinQueue r queue = joinQueue x queue) :
    r = x := by
  have joined : (r :: queue).Perm (x :: queue) := (joinQueue_perm r queue).symm.trans (h ▸ joinQueue_perm x queue)
  have counted := joined.count_eq r
  rw [List.count_cons_self] at counted
  by_cases same : r = x
  · exact same
  · rw [List.count_cons_of_ne (Ne.symm same)] at counted
    omega

theorem ne_joinQueue (r : ReplyRecord) (queue : List ReplyRecord) : queue ≠ joinQueue r queue := fun h => by
  have longer := length_joinQueue r queue
  rw [← h] at longer
  omega

/-- The record a request's settling has put into the queue carries its owner's reply. -/
theorem reply_of_settleReply_joined {n m : Fin 9} {tag tag' : Byte} {cls : ReplyBody → ReplyClass} {a : LinkAnswer}
    {body : ReplyBody} {argument : Argument} {c : ReplyClass} (link : a.state.rlc = s.rlc)
    (joined : (settleReply n tag cls a).rlc.queue = joinQueue ⟨m, tag', body, argument, c⟩ s.rlc.queue) :
    a.reply = some (body, argument) := by
  rw [← link] at joined
  obtain ⟨u, reply⟩ := a
  cases reply with
  | none => exact absurd joined (ne_joinQueue _ _)
  | some reply => cases joinQueue_left_inj joined; rfl

theorem frameTaken_queue (n : Fin 9) (s : State) : (frameTaken n s).rlc.queue = s.rlc.queue := heard_queue n s

theorem frameTaken_reserved (n : Fin 9) (s : State) : (frameTaken n s).rlc.reserved = s.rlc.reserved + 1 :=
  congrArg (· + 1) (heard_reserved n s)

/-- An IDLE frame is never taken, so no reply joins the queue (R168). -/
theorem requestFrame_idle {serve : Nat → State → LinkAnswer} (h : s.servesFrame l.node l.moment) :
    (requestFrame .idle l serve s).rlc.queue = s.rlc.queue := by
  obtain ⟨slotEnd, running, listens, -⟩ := h
  rw [requestFrame, slotEnd, beq_self_eq_true, goodFrame_notTaken running listens (.inr (.inl rfl)), heard_queue]

/-- A served request answered with a refusal leaves the state `frameTaken` and its reply. -/
theorem refused_eq_frameTaken {i : Instr} {fields : List Byte} {body : ReplyBody} {argument : Argument}
    {cls : ReplyClass} (parts : linkParts i = some (l, k, fields)) (h : s.servesFrame l.node l.moment)
    (next : exec i s = .next t) (joined : t.rlc.queue = joinQueue ⟨l.node, l.tag, body, argument, cls⟩ s.rlc.queue)
    (refused : RefusalReply body argument) :
    t = { frameTaken l.node s with
      rlc := { (frameTaken l.node s).rlc with queue := t.rlc.queue, reserved := s.rlc.reserved } } := by
  obtain ⟨serve, reached, answered⟩ := exec_servedSoundly (s := s) parts
  rw [reached] at next
  cases next
  by_cases idle : k = .idle
  · subst idle
    exact absurd ((requestFrame_idle h).symm.trans joined) (ne_joinQueue _ _)
  · rw [requestFrame, beq_false_of_ne idle, goodFrame_served h] at joined ⊢
    rw [← frameTaken_queue l.node s] at joined
    have answer := answered (s.frameArrival l.node) (frameTaken l.node s)
    have kept := answer.state_of_refused (reply_of_settleReply_joined answer.link joined) refused
    rw [settleReply, kept, frameTaken_reserved]
    rfl

end Sys2Proof.Machine

open Sys2Proof Sys2Proof.Machine in
/-- Settles O8: an owner that refuses answers with the records it met (`exec_eq_answered`, `exec_servedSoundly`), and the
reply that has joined the queue is the owner's (`joinQueue_left_inj`). -/
theorem refusedCommandChangesNoRecord : Obligations.RefusedCommandChangesNoRecord := by
  refine ⟨fun i o c s t reply r h served handled next held result notDenied => ?_,
    fun i l k fields s t body argument cls parts h next joined refused =>
      refused_eq_frameTaken parts h next joined refused⟩
  rw [refused_eq_placeReply h served handled next held result notDenied]
  rfl
end

section
/-! PROOFS. ACK ATTENTION and SET ENABLES at their owner (R183, R184), and ATTN (R182). -/

namespace Sys2Proof.Machine

variable {s : State} {o : OfficeFrame}

/-- The flags left by an ACK ATTENTION: all but those named (R183). -/
theorem hasMember_flagsLeft {held : MemberSet 8} {named : BitVec 16} {k : Nat} (hk : k < 8) :
    hasMember (held &&& ~~~(named.setWidth 8)) k = (hasMember held k && !hasMember named k) := by
  simp [hasMember, hk]

/-- The enables left by a SET ENABLES: the value's under the mask, the old ones elsewhere (R184). -/
theorem hasMember_writtenEnables {mask value : BitVec 16} {enables : MemberSet 8} {k : Nat} (hk : k < 8) :
    hasMember (writtenEnables (mask.setWidth 8) (value.setWidth 8) enables) k =
      if hasMember mask k then hasMember value k else hasMember enables k := by
  unfold writtenEnables hasMember
  cases masked : mask.getLsbD k <;> simp [hk, masked]

theorem ackAttention_completes {flags : BitVec 16} (h : s.admits o .portCommand) (known : flags.toNat < 256) :
    exec (.ackAttention o flags) s =
      (let left := s.op.flags &&& ~~~(flags.setWidth 8)
      answersOk .ackAttention o (bytes2 left.toNat) { seen .ackAttention o s with op := { s.op with flags := left } }) := by
  refine officeCommand_ok h ?_
  rw [ackAttentionAnswer, if_pos (by simpa [attentionOk] using known)]
  rfl

theorem setEnables_completes {mask value : BitVec 16} (h : s.admits o .portCommand) (known : mask.toNat < 256)
    (values : value.toNat < 256) :
    exec (.setEnables o mask value) s =
      (let enables := writtenEnables (mask.setWidth 8) (value.setWidth 8) s.op.enables
      answersOk .setEnables o (bytes2 enables.toNat)
        { seen .setEnables o s with op := { s.op with enables := enables } }) := by
  refine officeCommand_ok h ?_
  rw [setEnablesAnswer, if_pos (by simp [attentionOk, known, values])]
  rfl

/-- Every bit of a set of eight is an attention flag's. -/
theorem exists_attentionFlag {k : Nat} (hk : k < 8) : ∃ f ∈ attentionFlags, f.bit = k :=
  (by decide : ∀ k : Fin 8, ∃ f ∈ attentionFlags, f.bit = k.val) ⟨k, hk⟩

/-- There is an attention reason while some flag is set and enabled (R178, R182). -/
theorem attentionReason_isSome : (attentionReason s).isSome = true ↔
    ∃ k, hasMember s.op.flags k = true ∧ hasMember s.op.enables k = true := by
  rw [attentionReason, List.find?_isSome]
  constructor
  · rintro ⟨f, -, both⟩
    exact ⟨f.bit, Bool.and_eq_true_iff.mp both⟩
  · rintro ⟨k, set, enabled⟩
    obtain ⟨f, listed, rfl⟩ := exists_attentionFlag (lt_of_hasMember set)
    exact ⟨f, listed, Bool.and_eq_true_iff.mpr ⟨set, enabled⟩⟩

/-- While the part works, ATTN is asserted while some flag is set and enabled (R182). -/
theorem attnAsserted_iff (running : s.running = true) : attnAsserted s = true ↔
    ∃ k, hasMember s.op.flags k = true ∧ hasMember s.op.enables k = true := by
  rw [attnAsserted, running, Bool.true_and, attentionReason_isSome]

end Sys2Proof.Machine

open Sys2Proof Sys2Proof.Machine in
/-- Settles O52: both commands reach their writing, and the set each leaves is read back bit by bit. -/
theorem attentionCommandsComplete : Obligations.AttentionCommandsComplete := by
  intro s o h
  refine ⟨fun flags known => ?_, fun mask value known values => ?_, attnAsserted_iff h.1.1⟩
  · exact ⟨_, fun k hk => hasMember_flagsLeft hk, ackAttention_completes h known⟩
  · exact ⟨_, fun k hk => hasMember_writtenEnables hk, setEnables_completes h known values⟩
end

section
/-! PROOFS. The part while RESET is low or VDD is off: no transaction is taken and no slot is served (R176, R194, R197). -/

namespace Sys2Proof.Machine

variable {s t : State}

/-- From `s` to `t` no record has changed: only the bytes shifted out and the mark of a transaction that is not taken may
have, and without power nothing at all. -/
structure Untouched (s t : State) : Prop where
  records : { t with out := s.out, underway := { t.underway with refused := s.underway.refused } } = s
  unpowered : s.pins.powered = false → t = s

theorem Untouched.refl (s : State) : Untouched s s := ⟨rfl, fun _ => rfl⟩

/-- A part with power that does not work is held by RESET. -/
theorem resetLow_of_powered (stopped : s.running = false) (powered : s.pins.powered = true) : s.pins.resetLow = true := by
  simpa [State.running, powered] using stopped

/-! ## Transactions (R176, R197) -/

theorem transaction_unpowered {m : OfficeMoment} {n : Nat} {handle : State → State} (off : s.pins.powered = false) :
    transaction m n handle s = s := by
  simp [transaction, off]

/-- While RESET is low the port is busy: a transaction that begins is marked, one that ends shifts out all-ones bytes, and
no command is handled. -/
theorem transaction_resetLow {m : OfficeMoment} {n : Nat} {handle : State → State} (powered : s.pins.powered = true)
    (low : s.pins.resetLow = true) : transaction m n handle s =
      match m with
      | .oselFalls => { s with underway := { s.underway with refused := true } }
      | .oselRises | .atOnce => refusedEnds n s
      | .handled => s := by
  cases m <;>
    simp [transaction, powered, oselFalls, oselRises, State.refuses, State.portBusy, State.commandWaits, low]

theorem transaction_untouched {m : OfficeMoment} {n : Nat} {handle : State → State} (stopped : s.running = false) :
    Untouched s (transaction m n handle s) := by
  cases powered : s.pins.powered with
  | false => rw [transaction_unpowered powered]; exact .refl s
  | true =>
    rw [transaction_resetLow powered (resetLow_of_powered stopped powered)]
    have on : s.pins.powered = false → ∀ t, t = s := fun off => absurd powered (by simp [off])
    cases m with
    | oselFalls => exact ⟨rfl, fun off => on off _⟩
    | oselRises | atOnce => exact ⟨rfl, fun off => on off _⟩
    | handled => exact .refl s

theorem officeCommandOf_eq_transaction (c : OfficeCommand) (cls : State → CommandClass) (o : OfficeFrame)
    (owner : Nat → State → Answer) (s : State) : ∃ handle, officeCommandOf c cls o owner s =
      transaction o.moment (transactionBytes (officeLength c) o.extra) handle s := by
  unfold officeCommandOf
  exact ⟨_, rfl⟩

/-- Every office command is a moment of a transaction as long as its frame and what follows it (R175). -/
theorem exec_eq_transaction {i : Instr} {o : OfficeFrame} {c : OfficeCommand} {args : List Byte}
    (parts : officeParts i = some (o, c, args)) :
    ∃ handle, exec i s = .next (transaction o.moment (transactionBytes (officeLength c) o.extra) handle s) := by
  by_cases reply : c = .readReply
  · subst reply
    cases i <;> cases parts
    exact ⟨_, rfl⟩
  · obtain ⟨owner, reached⟩ := exec_eq_officeCommandOf (s := s) ⟨args, parts⟩ reply
    obtain ⟨handle, moment⟩ := officeCommandOf_eq_transaction c (fun t => classIn t i) o owner s
    exact ⟨handle, by rw [reached, moment]⟩

/-! ## Slots (R161, R197) -/

theorem goodFrame_stopped {n : Fin 9} {m : SlotMoment} {isIdle : Bool} {serve : Nat → State → State}
    (stopped : s.running = false) : goodFrame n m isIdle serve s = s := by
  simp [goodFrame, stopped]

theorem slotEvent_stopped {n : Fin 9} {entry : NodeEntry → NodeEntry} (stopped : s.running = false) :
    slotEvent n entry s = s := by
  simp [slotEvent, stopped]

/-! ## Every command -/

/-- The events that have their effect on a part that does not work: starts, power and RESET, and the clock's count (R194,
R197). -/
def actsStopped : Instr → Bool
  | .coldStart | .warmStart _ | .resetAsserted | .powerFail | .clockSecondCount | .minuteBoundary => true
  | _ => false

/-- Every other event is a transaction, a good frame in a slot, another slot event, a beacon or a day boundary. -/
theorem exec_untouched {i : Instr} (stopped : s.running = false) (next : exec i s = .next t)
    (other : actsStopped i = false) : Untouched s t := by
  cases office : officeParts i with
  | some parts =>
    obtain ⟨handle, reached⟩ := exec_eq_transaction (s := s) office
    rw [reached] at next
    cases next
    exact transaction_untouched stopped
  | none =>
    cases link : linkParts i with
    | some parts =>
      obtain ⟨serve, reached, -⟩ := exec_servedSoundly (s := s) link
      rw [reached, requestFrame, goodFrame_stopped stopped] at next
      cases next
      exact .refl s
    | none =>
      cases i
      case coldStart | warmStart | resetAsserted | powerFail | clockSecondCount | minuteBoundary => cases other
      case unknownCommandCode | droppedFrame | busyTransaction => cases next; exact transaction_untouched stopped
      case malformedFrame => cases next; rw [goodFrame_stopped stopped]; exact .refl s
      case damagedFrame | emptySlot => cases next; rw [slotEvent_stopped stopped]; exact .refl s
      case dayBoundary | beacon => cases next; simpa only [stopped] using .refl s
      all_goals cases office <;> cases link

/-- While the part does not work the clock alone counts (R44, R197). -/
theorem clockSecondCount_stopped (stopped : s.running = false) :
    exec .clockSecondCount s = .next (s.setClock (countedClock s.tc.clock)) := by
  simp [exec, execClockSecondCount, stopped]

theorem minuteBoundary_stopped (stopped : s.running = false) : exec .minuteBoundary s = .next (enterMinute s) := by
  simp [exec, execMinuteBoundary, stopped]

/-- Entering a minute writes the clock alone. -/
theorem enterMinute_clock (s : State) :
    { enterMinute s with tc := { (enterMinute s).tc with clock := s.tc.clock } } = s := by
  unfold enterMinute
  split <;> rfl

end Sys2Proof.Machine

open Sys2Proof Sys2Proof.Machine in
/-- Settles O6: a part with power that does not work is held by RESET, so its port is busy (`transaction_resetLow`) and it has
no slot (`exec_untouched`). -/
theorem nothingIsTakenWhileNotRunning : Obligations.NothingIsTakenWhileNotRunning := by
  intro i s t stopped next
  refine ⟨by simp [attnAsserted, stopped], by simp [State.lkdeAllows, stopped], ?_, fun o c args parts powered => ?_⟩
  · cases i
    case coldStart | warmStart | resetAsserted | powerFail => trivial
    case clockSecondCount =>
      rw [clockSecondCount_stopped stopped] at next
      cases next
      rfl
    case minuteBoundary =>
      rw [minuteBoundary_stopped stopped] at next
      cases next
      exact enterMinute_clock s
    all_goals
      obtain ⟨records, unpowered⟩ := exec_untouched stopped next rfl
      exact ⟨records, unpowered⟩
  · obtain ⟨handle, reached⟩ := exec_eq_transaction (s := s) parts
    rw [reached, transaction_resetLow powered (resetLow_of_powered stopped powered)] at next
    refine ⟨fun falls => ?_, fun ends => ?_⟩
    · rw [falls] at next
      cases next
      rfl
    · rcases ends with ends | ends <;> rw [ends] at next <;> cases next <;> exact ⟨rfl, rfl⟩
end

section
/-! PROOFS. REQUEST MODE at its owner, row by row of its table (R188, R189). -/

namespace Sys2Proof.Machine

variable {s : State} {m : Mode}

/-- The records with another mode and pending target (R187). -/
def State.withModes (s : State) (mode : Mode) (pending : Option Mode) : State :=
  { s with mc := { s.mc with mode := mode, pendingTarget := pending } }

theorem setMode_eq_withModes (s : State) (m : Mode) : s.setMode m = s.withModes m s.mc.pendingTarget := rfl

theorem setPendingTarget_eq_withModes (s : State) (t : Option Mode) : s.setPendingTarget t = s.withModes s.mc.mode t := rfl

/-! ## The table (R188) -/

/-- Outside RUN the target is taken at once, RUN only with the clock set (R189). -/
theorem requestedMode_outside (out : s.mc.mode ≠ .run) (steady : s.mc.pendingTarget = none)
    (entry : m = .run → s.tc.clockSet = true) : requestedMode m s = some (s.withModes m none) := by
  unfold requestedMode
  split
  · next run => exact absurd run out
  · by_cases run : m = .run
    · rw [if_pos run, if_pos (entry run), run, setMode_eq_withModes, steady]
    · rw [if_neg run, setMode_eq_withModes, steady]

/-- Outside RUN a request for RUN with the clock not set is not granted (R189). -/
theorem requestedMode_noClock (out : s.mc.mode ≠ .run) (unset : s.tc.clockSet = false) :
    requestedMode .run s = none := by
  unfold requestedMode
  split
  · next run => exact absurd run out
  · simp [unset]

/-- In RUN a request for RUN leaves nothing pending. -/
theorem requestedMode_stays (run : s.mc.mode = .run) : requestedMode .run s = some (s.withModes .run none) := by
  cases pending : s.mc.pendingTarget with
  | none =>
    have same : s.withModes .run none = s := by rw [State.withModes, ← run, ← pending]
    simp only [requestedMode, run, pending, if_true, same]
  | some _ => simp only [requestedMode, run, pending, if_true, setPendingTarget_eq_withModes]

/-- In RUN with nothing pending and no folder LOADING another target is taken at once. -/
theorem requestedMode_leaves (run : s.mc.mode = .run) (other : m ≠ .run) (steady : s.mc.pendingTarget = none)
    (idle : s.loadingCount = 0) : requestedMode m s = some (s.withModes m none) := by
  simp only [requestedMode, run, steady, if_neg other, if_pos idle, setMode_eq_withModes]

/-- In RUN with nothing pending another target waits for the folders LOADING. -/
theorem requestedMode_waits (run : s.mc.mode = .run) (other : m ≠ .run) (steady : s.mc.pendingTarget = none)
    (loading : s.loadingCount ≠ 0) : requestedMode m s = some (s.withModes .run (some m)) := by
  simp only [requestedMode, run, steady, if_neg other, if_neg loading, setPendingTarget_eq_withModes]

/-- In RUN another target takes the place of the one pending. -/
theorem requestedMode_replaces (run : s.mc.mode = .run) (other : m ≠ .run) (waiting : s.mc.pendingTarget ≠ none) :
    requestedMode m s = some (s.withModes .run (some m)) := by
  obtain ⟨held, pending⟩ := Option.ne_none_iff_exists'.mp waiting
  simp only [requestedMode, run, pending, if_neg other, setPendingTarget_eq_withModes]

/-! ## The command -/

variable {o : OfficeFrame} {target : Byte}

/-- A request that the table grants is answered with the mode and pending target after it and the folders LOADING. -/
theorem requestMode_completes {mode : Mode} {pending : Option Mode} (h : s.admits o .modeRequest)
    (named : Mode.ofCode target = some m)
    (granted : requestedMode m (seen .requestMode o s) = some ((seen .requestMode o s).withModes mode pending)) :
    exec (.requestMode o target) s = answersOk .requestMode o
      ([BitVec.ofNat 8 mode.code, pendingByte pending] ++ byte1 s.loadingCount)
      ((seen .requestMode o s).withModes mode pending) := by
  refine officeCommand_ok h ?_
  simp only [requestModeAnswer, named, granted]
  rfl

theorem requestMode_refused (h : s.admits o .modeRequest) (named : Mode.ofCode target = some m)
    (refused : requestedMode m (seen .requestMode o s) = none) :
    exec (.requestMode o target) s = refusesWith .requestMode o .noClock s :=
  officeCommand_refused h (by simp only [requestModeAnswer, named, refused])

end Sys2Proof.Machine

open Sys2Proof Sys2Proof.Machine in
/-- Settles O53: each row of the table has its `requestedMode_…`; the request meets the modes, clock and folders of the state
`seen`, which are those before it. -/
theorem requestModeFollowsItsTable : Obligations.RequestModeFollowsItsTable := by
  intro s o target m h named
  refine ⟨fun out steady other => ?_, fun out steady run set => ?_, fun out run unset => ?_, fun held run => ?_,
    fun held other steady idle => ?_, fun held other steady loading => ?_, fun held other waiting => ?_⟩
  · exact requestMode_completes h named (requestedMode_outside out steady fun run => absurd run other)
  · subst run
    exact requestMode_completes h named (requestedMode_outside out steady fun _ => set)
  · subst run
    exact requestMode_refused h named (requestedMode_noClock out unset)
  · subst run
    exact requestMode_completes h named (requestedMode_stays held)
  · exact requestMode_completes h named (requestedMode_leaves held other steady (loadingCount_eq_zero.mpr idle))
  · exact requestMode_completes h named (requestedMode_waits held other steady (loadingCount_ne_zero.mpr loading))
  · exact requestMode_completes h named (requestedMode_replaces held other waiting)
end

section
/-! PROOFS. Starts: a cold start gives every record its cold value, and the cold state meets every invariant (R195 to R198). -/

namespace Sys2Proof.Machine

variable {s : State}

/-! ## The cold state (R195, R198) -/

theorem account_reset (i : Fin 64) : State.reset.account i = Account.free := by
  simp [State.account, State.reset]

/-- The cold day is treated (R195). -/
theorem today_reset : State.reset.today = State.reset.tc.treatedDay := by decide

/-- The one attention flag a cold start sets (R195). -/
theorem clock_flags_reset : withMember 0 AttentionFlag.clock.bit = State.reset.op.flags := by decide

/-- With every account FREE there is nothing to recompute (R56). -/
theorem recomputeAll_of_free (free : ∀ i, (s.account i).state = .free) : recomputeAll s = s :=
  overAccounts_invariant (· = s) _ (fun i t kept => by rw [kept, if_pos (free i)]) s rfl

/-- The alarms step of a start that finds the day treated and every account FREE does nothing (R60). -/
theorem startAlarms_of_free (treated : s.today = s.tc.treatedDay) (free : ∀ i, (s.account i).state = .free) :
    startAlarms s = s := by
  rw [startAlarms, if_neg (not_not_intro treated), recomputeAll_of_free free]

/-- A cold start gives every record its cold value; it keeps the pins, the outputs and the queue, and a transaction that is
being shifted is not taken any more (R195, R197, R198). -/
theorem coldStart_eq (cause : StartCause) (s : State) : coldStart cause s =
    { State.reset with
      mc := { State.reset.mc with lastStart := ⟨.cold, cause⟩ }
      pins := s.pins
      underway := s.discardUnderway.underway
      out := s.out
      pending := s.pending } := by
  have treated : (setAttention .clock (commonStart (coldValues s))).today = State.reset.tc.treatedDay := today_reset
  have free : ∀ i, (setAttention .clock (commonStart (coldValues s))).account i = Account.free := account_reset
  have cleared : (commonStart (coldValues s)).op.flags = 0 := rfl
  rw [coldStart, startAlarms_of_free treated fun i => congrArg Account.state (free i), setAttention, cleared,
    clock_flags_reset]
  rfl

/-- A cold start by power-on with RESET high (R195). -/
theorem coldStart_power_setRunning (s : State) : coldStart .power s.setRunning =
    { State.reset with underway := s.discardUnderway.underway, out := s.out, pending := s.pending } := by
  rw [coldStart_eq]
  rfl

theorem coldStart_reset : coldStart .power State.reset = State.reset := by
  rw [coldStart_eq]
  rfl

theorem powerOn_cold (high : s.pins.resetLow = false) :
    powerOn .cold s = { State.reset with out := s.out, pending := s.pending } := by
  rw [powerOn, high, if_neg Bool.false_ne_true, startByPower, coldStart_power_setRunning]
  rfl

/-- With RESET held low a power-on owes its start (R197). -/
theorem powerOn_resetLow (low : s.pins.resetLow = true) (kind : StartKind) :
    powerOn kind s = { s.nothingUnderway with pins := ⟨true, true, some kind⟩ } := by
  rw [powerOn, if_pos low]

/-- The return of RESET makes the cold start that a power-on owes (R197). -/
theorem resetReturns_cold (powered : s.pins.powered = true) (owed : s.pins.startOwed = some .cold) :
    resetReturns s =
      { State.reset with underway := s.discardUnderway.underway, out := s.out, pending := s.pending } := by
  rw [resetReturns, if_pos powered, owed]
  exact coldStart_power_setRunning s

theorem clearAll_completes {o : OfficeFrame} (h : s.admits o .supervisorOnly) (config : s.mc.mode = .config) :
    exec (.clearAll o) s = answersOk .clearAll o [] (coldStart .clearAll (seen .clearAll o s)) :=
  officeCommand_ok h (if_pos config)

/-! ## The invariants in the cold state -/

theorem reset_clockOk : State.reset.ClockOk where
  ceiling := Nat.zero_le _
  highWater := Nat.le_refl _
  since i held := absurd (congrArg Account.state (account_reset i)) held
  logTimes _ he := nomatch he

theorem Account.free_hoursOk : Account.free.HoursOk where
  shiftDrive := Nat.zero_le _
  driveSinceBreak := Nat.zero_le _
  buckets k := by simp [Account.free]

theorem reset_hoursOk : State.reset.HoursOk := fun i => account_reset i ▸ Account.free_hoursOk

theorem reset_logOk : State.reset.LogOk where
  count := Nat.zero_le _
  next := by decide
  consecutive k h := absurd h (Nat.not_lt_zero k)
  denials := Nat.zero_le _
  neverSupervisor _ hd := nomatch hd

end Sys2Proof.Machine

open Sys2Proof Sys2Proof.Machine in
/-- Settles O54: each of the four starts reaches `coldStart`, whose records are the cold values (`coldStart_eq`). -/
theorem coldStartsGiveTheColdState : Obligations.ColdStartsGiveTheColdState := by
  refine fun s => ⟨fun high => ?_, fun low => ?_, fun powered owed => ?_, fun o h config => ?_⟩
  · exact congrArg _ (powerOn_cold high)
  · exact congrArg _ (powerOn_resetLow low .cold)
  · exact congrArg _ (resetReturns_cold powered owed)
  · rw [clearAll_completes h config, coldStart_eq, discardUnderway_underway]
    simp [Underway.shifting, seen]

open Sys2Proof Sys2Proof.Machine in
/-- Settles O10: the cold state is what a cold start makes of itself (`coldStart_reset`), and every cold start leaves records
and link in order. -/
theorem coldStateMeetsTheInvariants : Obligations.ColdStateMeetsTheInvariants :=
  ⟨reset_tablesOk, reset_clockOk, reset_hoursOk, coldStart_reset ▸ coldStart_records .power State.reset,
    coldStart_reset ▸ coldStart_linkOk .power State.reset, reset_logOk⟩
end

section
/-! PROOFS. The queue of commands: a step takes its front (log 5), every command answers a next state, and none of them
writes the queue. -/

namespace Sys2Proof.Machine

variable {s t : State} {late : Prop} {i : Instr}

/-! ## The step at a queue (log 5) -/

theorem step_of_nil (empty : s.pending = []) : step s = .next s := by
  rw [step, empty]

theorem step_of_cons {rest : List Instr} (front : s.pending = i :: rest) :
    step s = exec i { s with pending := rest } := by
  rw [step, front]

/-! ## What a change does to the queue -/

theorem coldStart_pending (cause : StartCause) (s : State) : (coldStart cause s).pending = s.pending := by
  rw [coldStart_eq]

theorem warmStart_pending (cause : StartCause) (s : State) : (warmStart cause s).pending = s.pending := by
  simp [warmStart, commonStart]

/-- A mode request writes the mode or the pending target alone (R188). -/
theorem requestedMode_pending {m : Mode} (ht : requestedMode m s = some t) : t.pending = s.pending := by
  unfold requestedMode at ht
  (repeat' split at ht) <;> cases ht <;> rfl

/-- No change writes the queue: only `step` takes a command off it. -/
theorem Change.pending (c : Change late s t) : t.pending = s.pending := by
  cases c with
  | coldStarted cause => exact coldStart_pending cause s
  | warmStarted cause => exact warmStart_pending cause s
  | modeRequested m t ht => exact requestedMode_pending ht
  | voided => dsimp only; split <;> simp
  | replyPlaced | flagsWritten | enablesWritten | pinsWritten | rightsWritten | meteringWritten | replyJoined | placeGivenUp
  | folderPlanned | linkWritten | compartmentStarted | compartmentReported | logAcknowledged | levelWritten => rfl
  | _ => simp

/-! ## Every command -/

/-- The part has no fault and refuses no command: each command's meaning is a next state. -/
theorem exec_answers_next (i : Instr) (s : State) : ∃ t, exec i s = .next t := by
  cases i <;> exact ⟨_, rfl⟩

/-- A command leaves the queue behind it: its meaning is a run of changes (`exec_changes`). -/
theorem exec_pending (h : exec i s = .next t) : t.pending = s.pending :=
  (exec_changes h).keeps (P := fun u => u.pending = s.pending) (fun _ _ same c => c.pending.trans same) rfl

end Sys2Proof.Machine

open Sys2Proof Sys2Proof.Machine in
/-- Settles O2: an empty queue leaves the state (`step_of_nil`); else the command at the front answers a next state
(`exec_answers_next`) and keeps the rest of the queue that it was given (`exec_pending`). -/
theorem everyStepAnswersANextState : Obligations.EveryStepAnswersANextState := by
  intro s
  cases queue : s.pending with
  | nil => exact ⟨s, step_of_nil queue, queue, fun _ => rfl⟩
  | cons i rest =>
    obtain ⟨t, executed⟩ := exec_answers_next i { s with pending := rest }
    exact ⟨t, (step_of_cons queue).trans executed, exec_pending executed, nofun⟩

open Sys2Proof Sys2Proof.Machine in
/-- Settles O1: the step's case of a queue that is not empty. -/
theorem stepTakesTheFrontCommand : Obligations.StepTakesTheFrontCommand :=
  fun _ _ _ => step_of_cons rfl
end
